-- ==== Sys2Proof/Word.lean ====
section
/-! DEFINITION. The word types of the block and their plainest operations (00_scope R17, R18, R21). -/

namespace Sys2Proof

/-- A register value or a bus byte: an unsigned 8-bit value (R17). -/
abbrev Byte := BitVec 8

/-- A divisor: an unsigned 16-bit value (R17, R61). -/
abbrev Half := BitVec 16

/-- `BIT(k)`, a byte with bit `k` alone set (R21). -/
def bit (k : Nat) : Byte := BitVec.ofNat 8 (1 <<< k)

/-- `v[i]` as a truth value (R17). -/
def Byte.has (v : Byte) (i : Nat) : Bool := v.getLsbD i

end Sys2Proof
end

