-- ==== Sys2Proof/Syntax.lean ====
section
/-! DEFINITION. The operations of the block (one constructor of `Instr` per row of spec/opcode_table.json), their operand
types, the agents, and what the block shows the outside (R25, R116). -/

namespace Sys2Proof

/-- The agents that take steps (00_scope R9). The UART core never steps; it answers reads. -/
inductive Agent where
  /-- The worker that runs the dispatch pass. -/
  | dispatcher
  /-- The deferred task "begin transmit" of channel `c`. -/
  | beginTx (c : Nat)
  /-- The deferred task "stop transmit" of channel `c`. -/
  | stopTx (c : Nat)
  /-- The deferred task "stop receive" of channel `c`. -/
  | stopRx (c : Nat)
  /-- The deferred task "apply modem-control change" of channel `c`. -/
  | setMctrl (c : Nat)
  /-- The configuration agent of channel `c`: the synchronous host requests. -/
  | config (c : Nat)
  deriving DecidableEq, Repr, Inhabited

/-- The four deferred-task agents of a channel (R9, R286). -/
def Agent.isDeferred : Agent → Bool
  | .beginTx _ | .stopTx _ | .stopRx _ | .setMctrl _ => true
  | .dispatcher | .config _ => false

/-- Word length, LCR bits 1:0 (R59, R160). -/
inductive WordLen where
  | five | six | seven | eight
  deriving DecidableEq, Repr, Inhabited

/-- Stop bits, LCR bit 2 (R59, R160). -/
inductive StopBits where
  | one | two
  deriving DecidableEq, Repr, Inhabited

/-- Parity, LCR bits 5:3 (R59, R160); `none` of the spec is `off` here. -/
inductive Parity where
  | off | odd | even | mark | space
  deriving DecidableEq, Repr, Inhabited

/-- The three sources that lead to the receive service (R190). -/
inductive RxSource where
  | rda | rls | rto
  deriving DecidableEq, Repr, Inhabited

/-- An RS-485 configuration (R42); delays count `delayUnit`s. -/
structure Rs485 where
  enabled   : Bool := false
  preDelay  : Nat := 0
  postDelay : Nat := 0
  deriving DecidableEq, Repr, Inhabited

/-- The payload of SET_LINE as the host sends it (R163): its operands may lie outside their sets (R162). A parity outside
the five is `none`. -/
structure LineParams where
  wordLen        : Nat
  stopBits       : Nat
  parity         : Option Parity
  baud           : Nat
  flow           : Bool
  readStatusMask : Byte
  ignoreMask     : Byte
  deriving DecidableEq, Repr, Inhabited

/-- The operations, one constructor per row of spec/opcode_table.json. Channel numbers, offsets and lengths are naturals,
because a request may carry one outside its range (R131). The IIR rows carry the bits of the byte the row leaves free
(bits 7:4, or bits 7:1 for NOINT; R112). -/
inductive Instr where
  | read (c r : Nat)
  | write (c r : Nat) (v : Byte)
  | burstWrite (c startReg : Nat) (bytes : List Byte)
  | burstRead (c n : Nat)
  | iirNoint (rest : BitVec 7)
  | iirMsi (hi : BitVec 4)
  | iirThre (hi : BitVec 4)
  | iirRda (hi : BitVec 4)
  | iirRls (hi : BitVec 4)
  | iirRto (hi : BitVec 4)
  | iirUnknown08 (hi : BitVec 4)
  | iirUnknown0A (hi : BitVec 4)
  | iirUnknown0E (hi : BitVec 4)
  | update (c r : Nat) (mask value : Byte)
  | computeDivisor (clockHz target : Nat)
  | setDivisor (c : Nat) (d : Half)
  | lcrEncode (w : WordLen) (st : StopBits) (p : Parity) (brk : Bool)
  | setLine (c : Nat) (p : LineParams)
  | signal
  | dispatchPass
  | rxService (c : Nat) (src : RxSource)
  | txService (c : Nat)
  | msiService (c : Nat)
  | txSettle (c : Nat)
  | beginTx (c : Nat)
  | stopTx (c : Nat)
  | stopRx (c : Nat)
  | setMctrl (c : Nat) (bits : Byte)
  | getStatus (c : Nat)
  | configFlow (c : Nat) (enabled : Bool)
  | rs485Get (c : Nat)
  | rs485Set (c : Nat) (cfg : Rs485)
  | attach
  | startup (c : Nat)
  | shutdown (c : Nat)
  deriving DecidableEq, Repr, Inhabited

/-- The kind of a bus transaction, as a BusError names it (R133, R134-R140). -/
inductive BusKind where
  | read | write | burstWrite | burstRead
  deriving DecidableEq, Repr, Inhabited

/-- One transaction as the trace records it (R132). -/
structure Event where
  agent : Agent
  cmd   : Byte
  data  : List Byte
  ok    : Bool
  deriving DecidableEq, Repr, Inhabited

/-- The log events (R241, D52). -/
inductive LogEvent where
  | busError (k : BusKind) (c r : Nat)
  | overrunSeen (c : Nat)
  | unexpectedInterruptSource (c : Nat) (v : Byte)
  deriving DecidableEq, Repr, Inhabited

/-- The flag of a received byte (R196). -/
inductive RxFlag where
  | normal | brk | parity | frame
  deriving DecidableEq, Repr, Inhabited

/-- The notifications to the line-discipline collaborator (R20 `emit`, R197, R208, R224). -/
inductive Notice where
  | rxBatch (c : Nat) (bytes : List (Byte × RxFlag))
  | wakeWriters (c : Nat)
  | ctsChange (c : Nat) (asserted : Bool)
  deriving DecidableEq, Repr, Inhabited

/-- The rejections (R244). -/
inductive Rejection where
  | invalidControlRequest
  | baudOutOfRange (target : Nat)
  deriving DecidableEq, Repr, Inhabited

/-- The decoded modem lines (R58, R222). -/
structure ModemLines where
  cts : Bool
  dsr : Bool
  ri  : Bool
  dcd : Bool
  deriving DecidableEq, Repr, Inhabited

/-- What an operation returns to its caller (R114). -/
inductive Result where
  | byte (v : Byte)
  | bytes (l : List Byte)
  | divisor (d : Half) (achieved : Nat)
  | baud (achieved : Nat)
  | lines (m : ModemLines)
  | rs485 (cfg : Rs485)
  | rejected (r : Rejection)
  deriving DecidableEq, Repr, Inhabited

/-- What the block shows the outside, in order (R25, R116): transactions, log events, notifications, synchronous results
and sleeps. -/
inductive Obs where
  | txn (e : Event)
  | log (e : LogEvent)
  | emit (n : Notice)
  | result (g : Agent) (r : Result)
  | sleep (g : Agent) (d : Nat)
  deriving DecidableEq, Repr, Inhabited

/-- The UART core's answer to one transaction (R84, R132): whether the transport succeeded, and the bytes that come in. -/
structure Draw where
  ok    : Bool
  bytes : List Byte
  deriving DecidableEq, Repr, Inhabited

/-- What can happen next (R10, R44, R45, R114, R171, R228): a request, a transaction record from elsewhere, a turn for an
agent, or an act of the collaborator. -/
inductive InputKind where
  /-- An operation of R114 is requested (SIGNAL is the interrupt input). -/
  | request (i : Instr)
  /-- A transaction record, command byte first, is presented to the bus decoder (R109, R115). -/
  | bus (bytes : List Byte)
  /-- The agent named by the input runs (R10). -/
  | run
  /-- The agent named by the input, being idle, drops its pending request number `k`, never the last one (R228). -/
  | dropPending (k : Nat)
  /-- The collaborator appends bytes to `txQueue` (R44). -/
  | queueTx (c : Nat) (bytes : List Byte)
  /-- The collaborator sets the control byte (R45). -/
  | setXChar (c : Nat) (b : Byte)
  /-- The collaborator sets or clears the stopped flag (R45). -/
  | setTxStopped (c : Nat) (v : Bool)
  deriving DecidableEq, Repr, Inhabited

/-- One input: what happens, which agent has the turn, and how many statements it may run before another agent may. -/
structure Input where
  kind    : InputKind
  turn    : Agent
  quantum : Nat
  deriving DecidableEq, Repr, Inhabited

end Sys2Proof
end

