-- ==== Sys2Proof/Config.lean ====
section
/-! DEFINITION. The parameters of the block (00_scope R16) and its free values. A parameter the spec leaves OPEN, and every
value the spec calls arbitrary, is an opaque constant: nothing in Lean can evaluate it. -/

namespace Sys2Proof

/-- The IIR parameters `iirNoIntBit`, `iirIdMask`, `iirCodes` (R16, R112). -/
structure IirParams where
  noIntBit : Nat
  idMask   : Byte
  msi      : Byte
  thre     : Byte
  rda      : Byte
  rls      : Byte
  rto      : Byte
  deriving DecidableEq, Repr, Inhabited

/-- The parameter `mcrBits`: MCR bit positions (R16, R56). -/
structure McrBits where
  dtr  : Nat
  rts  : Nat
  out1 : Nat
  out2 : Nat
  loop : Nat
  afe  : Nat
  deriving DecidableEq, Repr, Inhabited

/-- The parameter `dlabHazardScope` (R16, R285, D14). -/
inductive DlabScope where
  | anyChannel | sameChannel
  deriving DecidableEq, Repr, Inhabited

/-- The parameter `irqSense` (R16, D15). -/
inductive IrqSense where
  | level | edge
  deriving DecidableEq, Repr, Inhabited

/-- One write of the parameter `powerDownSeq` (R16, R280). -/
structure PowerDownWrite where
  chan  : Nat
  reg   : Nat
  value : Byte
  deriving DecidableEq, Repr, Inhabited

/-- The parameters that a controller is constructed with and that are fixed for its lifetime (R16, R272). -/
structure Params where
  nCh                : Nat
  clockHz            : Nat
  lowWater           : Nat
  fifoResetDelay     : Nat
  initReadStatusMask : Byte
  initIgnoreMask     : Byte
  dlabScope          : DlabScope
  iir                : IirParams
  mcr                : McrBits
  fcrReset           : Byte
  fcrEnable          : Byte
  stopRxMask         : Byte
  powerDownSeq       : List PowerDownWrite
  deriving DecidableEq, Repr, Inhabited

namespace Config

/-- FIFO depth in bytes, both directions (R12). -/
def fifoDepth : Nat := 16

/-- Channel count of this part, the dual UART (R11, D1). -/
def nCh : Nat := 2

/-- IIR layout and codes: PRESUMED (16550 family, spec 93 G2, D17). -/
def iir : IirParams :=
  { noIntBit := 0, idMask := 0x0E#8, msi := 0x00#8, thre := 0x02#8, rda := 0x04#8, rls := 0x06#8, rto := 0x0C#8 }

/-- MCR bit positions: PRESUMED (16550 family, spec 93 G5, D31). -/
def mcr : McrBits := { dtr := 0, rts := 1, out1 := 2, out2 := 3, loop := 4, afe := 5 }

/-- OPEN (R13, D2): the reference clock less 1, so that the clock itself is greater than 0. -/
opaque clockHzLessOne : Nat

/-- OPEN (R14, D25). -/
opaque lowWater : Nat

/-- OPEN (R16, D37). -/
opaque fifoResetDelay : Nat

/-- OPEN (R16, D49). -/
opaque initReadStatusMask : Byte

/-- OPEN (R16, D49). -/
opaque initIgnoreMask : Byte

/-- OPEN (R16, D15). No rule reads it: signals arrive freely under either sensitivity (R171). -/
opaque irqSense : IrqSense

/-- OPEN (R15, D48): the length of one delay unit, in nanoseconds. No rule reads it: a sleep has no duration (R296). -/
opaque delayUnit : Nat

/-- OPEN (R16, D48): which RS-485 payloads are well formed. -/
opaque rs485Valid : Rs485 → Bool

/-- OPEN (R16, R58, D40): the decoding of every MSR byte but 0xB0. -/
opaque msrDecodeOther : Byte → ModemLines

/-- `msrDecode`: fixed at 0xB0 by the source's example, open elsewhere (R58, V-L1-6). -/
def msrDecode (m : Byte) : ModemLines :=
  if m = 0xB0#8 then { cts := true, dsr := false, ri := false, dcd := true } else msrDecodeOther m

/-- The parameters of this part: the spec's values where R16 gives one (values it marks gk are PRESUMED), opaque where OPEN. -/
def params : Params :=
  { nCh := nCh, clockHz := clockHzLessOne + 1, lowWater := lowWater, fifoResetDelay := fifoResetDelay
    initReadStatusMask := initReadStatusMask, initIgnoreMask := initIgnoreMask, dlabScope := .anyChannel
    iir := iir, mcr := mcr, fcrReset := 0x06#8, fcrEnable := 0xC1#8, stopRxMask := 0x05#8, powerDownSeq := [] }

/-- Free value (R84, R132): whether transaction number `k` succeeds; it may depend on everything shown so far. -/
opaque oracleOk : List Obs → Nat → Bool

/-- Free value (R84, R133): byte number `i` that transaction number `k` brings in. -/
opaque oracleByte : List Obs → Nat → Nat → Byte

/-- Free value (R10, R171, D50): what happens next, as input number `k`. -/
opaque freeInput : List Obs → Nat → Input

/-- Free value (R32, R64, U39): byte `i` of the scratch buffer at attach. -/
opaque scratchByte : Nat → Byte

end Config
end Sys2Proof
end

