-- ==== Sys2Proof/WellFormed.lean ====
section
/-! DEFINITION. Which operations carry operands inside the sets the spec gives them. An ill-formed operation still has a
meaning (it raises BadAddress or BadBurst, or is rejected); the check says which requests the spec's callers may make. -/

namespace Sys2Proof

/-- The line-setting operands lie in their sets (R160, R162): 5 to 8 bits, 1 or 2 stop bits, one of the five parities. -/
def LineParams.wf (p : LineParams) : Bool :=
  decide (5 ≤ p.wordLen ∧ p.wordLen ≤ 8) && decide (p.stopBits = 1 ∨ p.stopBits = 2) && p.parity.isSome

/-- Operands inside their sets, for a controller of `n` channels (R37, R131, R139, R140, R150, R156, R162). -/
def Instr.wf (n : Nat) : Instr → Bool
  | .read c r => decide (c < n ∧ r < 8)
  | .write c r _ => decide (c < n ∧ r < 8)
  | .burstWrite c startReg bytes => decide (c < n ∧ startReg = 0 ∧ 1 ≤ bytes.length ∧ bytes.length ≤ Config.fifoDepth)
  | .burstRead c k => decide (c < n ∧ 1 ≤ k)
  | .iirNoint _ => true
  | .iirMsi _ => true
  | .iirThre _ => true
  | .iirRda _ => true
  | .iirRls _ => true
  | .iirRto _ => true
  | .iirUnknown08 _ => true
  | .iirUnknown0A _ => true
  | .iirUnknown0E _ => true
  | .update c r _ _ => decide (c < n ∧ r < 8)
  | .computeDivisor clockHz _ => decide (0 < clockHz)
  | .setDivisor c d => decide (c < n) && d != 0#16
  | .lcrEncode _ _ _ _ => true
  | .setLine c p => decide (c < n) && p.wf
  | .signal => true
  | .dispatchPass => true
  | .rxService c _ => decide (c < n)
  | .txService c => decide (c < n)
  | .msiService c => decide (c < n)
  | .txSettle c => decide (c < n)
  | .beginTx c => decide (c < n)
  | .stopTx c => decide (c < n)
  | .stopRx c => decide (c < n)
  | .setMctrl c _ => decide (c < n)
  | .getStatus c => decide (c < n)
  | .configFlow c _ => decide (c < n)
  | .rs485Get c => decide (c < n)
  | .rs485Set c _ => decide (c < n)
  | .attach => true
  | .startup c => decide (c < n)
  | .shutdown c => decide (c < n)

/-- The parameter values the model admits: 1 to 8 channels, a clock above 0 (R11, R13), and IIR codes no two of which are
equal (R113, U13). -/
def IirParams.distinct (p : IirParams) : Bool := [p.msi, p.thre, p.rda, p.rls, p.rto].Nodup

/-- A controller may be constructed with these parameters (R11, R13, R113). -/
def Params.admissible (p : Params) : Bool :=
  decide (1 ≤ p.nCh) && decide (p.nCh ≤ 8) && p.clockHz != 0 && p.iir.distinct

end Sys2Proof
end

