-- ==== Sys2Proof/Decode.lean ====
section
/-! DEFINITION. The bus command byte and the interrupt-identification byte: their encoders and decoders (30_encoding
R100-R113). -/

namespace Sys2Proof

/-- The register address of offset `r` of channel `c` (R19). -/
def regAddr (c r : Nat) : Nat := r + 8 * c

/-- The read command (R102). -/
def readCmd (c r : Nat) : Byte := 0xFD#8 &&& BitVec.ofNat 8 (regAddr c r <<< 2)

/-- The write command (R103). -/
def writeCmd (c r : Nat) : Byte := 0x02#8 ||| BitVec.ofNat 8 (regAddr c r <<< 2)

/-- The burst-write command: the write command of offset 0 (R104). -/
def burstWriteCmd (c : Nat) : Byte := 0x02#8 ||| BitVec.ofNat 8 (regAddr c 0 <<< 2)

/-- The burst-read command: the read command of offset 0 (R105). -/
def burstReadCmd (c : Nat) : Byte := 0xFD#8 &&& BitVec.ofNat 8 (regAddr c 0 <<< 2)

/-- Bit 0 of a command byte, 0 in every command the block issues (R101, R109). -/
def cmdZ (b : Byte) : Bool := b.has 0

/-- Bit 1 of a command byte: 1 for a write transaction (R101). -/
def cmdIsWrite (b : Byte) : Bool := b.has 1

/-- Bits 4:2 of a command byte, the register offset (R101). -/
def cmdReg (b : Byte) : Nat := (b.extractLsb' 2 3).toNat

/-- Bits 7:5 of a command byte, the channel (R101). -/
def cmdChan (b : Byte) : Nat := (b.extractLsb' 5 3).toNat

/-- Why a transaction record is refused. -/
inductive DecodeError where
  /-- No command byte (R100). -/
  | empty
  /-- Bit 0 of the command byte is 1 (R109, D4). -/
  | bitZeroSet (cmd : Byte)
  /-- The CH field is N or more (R110). -/
  | channelOutOfRange (cmd : Byte)
  /-- No kind of transaction with this command has `n` data bytes (R106). -/
  | dataLength (cmd : Byte) (n : Nat)
  deriving DecidableEq, Repr

/-- The operation that a transaction record stands for, in a controller of `n` channels (R101, R106). A record of one data
byte is a register access and a longer one of offset 0 a burst; with one byte the two are the same transaction (R107). -/
def decodeCommand (n : Nat) (cmd : Byte) (data : List Byte) : Except DecodeError Instr :=
  if cmdZ cmd then .error (.bitZeroSet cmd)
  else if n ≤ cmdChan cmd then .error (.channelOutOfRange cmd)
  else if cmdIsWrite cmd then
    match data with
    | [] => .error (.dataLength cmd 0)
    | [v] => .ok (.write (cmdChan cmd) (cmdReg cmd) v)
    | v :: w :: rest =>
      if cmdReg cmd = 0 ∧ (v :: w :: rest).length ≤ Config.fifoDepth then .ok (.burstWrite (cmdChan cmd) 0 (v :: w :: rest))
      else .error (.dataLength cmd (v :: w :: rest).length)
  else
    match data with
    | [] => .error (.dataLength cmd 0)
    | [_] => .ok (.read (cmdChan cmd) (cmdReg cmd))
    | v :: w :: rest =>
      if cmdReg cmd = 0 then .ok (.burstRead (cmdChan cmd) (v :: w :: rest).length)
      else .error (.dataLength cmd (v :: w :: rest).length)

/-- The decoder of a transaction's bytes, command byte first (R100). -/
def decode (n : Nat) : List Byte → Except DecodeError Instr
  | [] => .error .empty
  | cmd :: data => decodeCommand n cmd data

/-- The row of the opcode table an identification byte belongs to, under the parameters' default values (R112). -/
def decodeIirRow (v : Byte) : Instr :=
  if v.has 0 then .iirNoint (v.extractLsb' 1 7)
  else
    match (v.extractLsb' 1 3).toNat with
    | 0 => .iirMsi (v.extractLsb' 4 4)
    | 1 => .iirThre (v.extractLsb' 4 4)
    | 2 => .iirRda (v.extractLsb' 4 4)
    | 3 => .iirRls (v.extractLsb' 4 4)
    | 4 => .iirUnknown08 (v.extractLsb' 4 4)
    | 5 => .iirUnknown0A (v.extractLsb' 4 4)
    | 6 => .iirRto (v.extractLsb' 4 4)
    | _ => .iirUnknown0E (v.extractLsb' 4 4)

/-- The two kinds of encoded word the spec has: the bytes of a bus transaction (R100), and an identification byte, which is
read data and not a command (R112). -/
inductive Words where
  | bus (bytes : List Byte)
  | iir (v : Byte)
  deriving DecidableEq, Repr

/-- The words of an operation that has a binary encoding; the others have none (R114). The data phase of a read is what the
UART core sends, so its bytes here are zeros of the right number. -/
def encode : Instr → Option Words
  | .read c r => some (.bus [readCmd c r, 0#8])
  | .write c r v => some (.bus [writeCmd c r, v])
  | .burstWrite c _ bytes => some (.bus (burstWriteCmd c :: bytes))
  | .burstRead c k => some (.bus (burstReadCmd c :: List.replicate k 0#8))
  | .iirNoint rest => some (.iir (rest ++ 1#1))
  | .iirMsi hi => some (.iir (hi ++ 0x0#4))
  | .iirThre hi => some (.iir (hi ++ 0x2#4))
  | .iirRda hi => some (.iir (hi ++ 0x4#4))
  | .iirRls hi => some (.iir (hi ++ 0x6#4))
  | .iirRto hi => some (.iir (hi ++ 0xC#4))
  | .iirUnknown08 hi => some (.iir (hi ++ 0x8#4))
  | .iirUnknown0A hi => some (.iir (hi ++ 0xA#4))
  | .iirUnknown0E hi => some (.iir (hi ++ 0xE#4))
  | .update _ _ _ _ => none
  | .computeDivisor _ _ => none
  | .setDivisor _ _ => none
  | .lcrEncode _ _ _ _ => none
  | .setLine _ _ => none
  | .signal => none
  | .dispatchPass => none
  | .rxService _ _ => none
  | .txService _ => none
  | .msiService _ => none
  | .txSettle _ => none
  | .beginTx _ => none
  | .stopTx _ => none
  | .stopRx _ => none
  | .setMctrl _ _ => none
  | .getStatus _ => none
  | .configFlow _ _ => none
  | .rs485Get _ => none
  | .rs485Set _ _ => none
  | .attach => none
  | .startup _ => none
  | .shutdown _ => none

/-- The decoder of either kind of word. -/
def decodeWords (n : Nat) : Words → Except DecodeError Instr
  | .bus bytes => decode n bytes
  | .iir v => .ok (decodeIirRow v)

/-- The same transaction under its other name: a burst of one byte is the register access of offset 0 (R107). -/
def Instr.sameTransaction : Instr → Instr
  | .burstWrite c 0 [v] => .write c 0 v
  | .burstRead c 1 => .read c 0
  | i => i

/-- The bytes of a word numbered as spec/opcode_table.json numbers its bits: the first byte is bits 7:0. -/
def tableBytes (nbits w : Nat) : List Byte := (List.range (nbits / 8)).map fun i => BitVec.ofNat 8 (w >>> (8 * i))

/-- A byte that is a command of a controller of `n` channels: bit 0 clear and CH below `n` (R109, R110). -/
def isCommand (n : Nat) (b : Byte) : Bool := !cmdZ b && decide (cmdChan b < n)

/-- The words a table row's bits lay out. A lone command byte is followed by the longest data phase its offset admits, of
zeros (16 bytes at offset 0, else one). A byte that this part's block never issues as a command is an identification
byte: DESIGN CHOICE (log 6), because the table numbers both kinds of byte as bits 7:0. -/
def tableWords (nbits w : Nat) : Words :=
  match tableBytes nbits w with
  | [b] =>
    if isCommand Config.nCh b then .bus (b :: List.replicate (if cmdReg b = 0 then Config.fifoDepth else 1) 0#8) else .iir b
  | bytes => .bus bytes

/-- The operation the decoder reads from a table row's bits. -/
def decodeTableWord (nbits w : Nat) : Option Instr := (decodeWords Config.nCh (tableWords nbits w)).toOption

end Sys2Proof
end

