-- ==== Sys2Proof/Machine/State.lean ====
section
/-! DEFINITION. The machine's state as plain data (10_state R30-R50, 43_service R228), its faults and refusals, and the state
at attach (10_state R64). -/

namespace Sys2Proof.Machine

/-- A lock: free, or held by one agent (R31, R47, R91). -/
inductive Lock where
  | free
  | held (g : Agent)
  deriving DecidableEq, Repr, Inhabited

/-- A channel's life (R49). -/
inductive Life where
  | attached | opened | shut
  deriving DecidableEq, Repr, Inhabited

/-- The event counters (R46); they never wrap. -/
structure Counters where
  rx      : Nat := 0
  tx      : Nat := 0
  overrun : Nat := 0
  parity  : Nat := 0
  frame   : Nat := 0
  brk     : Nat := 0
  deriving DecidableEq, Repr, Inhabited

/-- The channel record (R36-R50). -/
structure Chan where
  index          : Nat
  msrCache       : Option Byte
  forced         : Byte
  mctrlReq       : Byte
  rs485          : Rs485
  readStatusMask : Byte
  ignoreMask     : Byte
  txQueue        : List Byte
  xChar          : Option Byte
  txStopped      : Bool
  counters       : Counters
  chLock         : Lock
  txActive       : Bool
  life           : Life
  rxBatch        : List (Byte × RxFlag)
  deriving DecidableEq, Repr, Inhabited

/-- Sub-states of the receive service (R190). -/
inductive RxStage where
  | start | waitDr | byte (l : Byte) | reLsr | flush
  deriving DecidableEq, Repr, Inhabited

/-- Sub-states of the transmit service (R200); `done` is the spec's `end`. -/
inductive TxStage where
  | start | xChar | check | settle | burst | wake | done
  deriving DecidableEq, Repr, Inhabited

/-- The dispatcher's control states (R170). -/
inductive DState where
  | idle
  | pollLsr (c : Nat)
  | readIir (c : Nat)
  | rx (c : Nat) (src : RxSource) (s : RxStage)
  | msi (c : Nat)
  | txLock (c : Nat)
  | tx (c : Nat) (s : TxStage)
  | nextCh (c : Nat)
  deriving DecidableEq, Repr, Inhabited

/-- The spec's model faults (R246-R249), recorded in `faults`. They stop the agent that raises them, not the machine. -/
inductive ModelFault where
  /-- A bus operation with `c >= N` or `r > 7` (R247); an operation that names no offset has `none` (log 5). -/
  | badAddress (c : Nat) (r : Option Nat)
  /-- A burst whose start register or length is out of range (R248). -/
  | badBurst (c startReg n : Nat)
  /-- A transaction of another agent inside the divisor window (R285). -/
  | dlabHazard (h : Agent) (cmd : Byte)
  /-- A write on a shut channel by the dispatcher or a deferred task (R286). -/
  | postShutdownWrite (c : Nat) (cmd : Byte)
  /-- A status query before any modem-status interrupt (R222). -/
  | msrUnknown (c : Nat)
  deriving DecidableEq, Repr, Inhabited

/-- The statements of the spec's pseudocode. The list of them that an agent has still to run is its control state, its
program counter (R40). A statement that follows a bus read takes the byte read from the agent's `acc`. -/
inductive Stmt where
  /-- The address check (R131). -/
  | checkAddr (c r : Nat)
  /-- The checks of BURST_WRITE (R139). -/
  | checkBurstWrite (c startReg n : Nat)
  /-- The checks of BURST_READ (R140). -/
  | checkBurstRead (c n : Nat)
  /-- `acquire ctl.busLock` (R91, R130). -/
  | acquireBus
  /-- `release ctl.busLock` (R91, R130). -/
  | releaseBus
  /-- `MemRead` of `n` bytes, and the log on failure (R132, R133). -/
  | txnRead (k : BusKind) (c r n : Nat)
  /-- `MemWrite`, and the log on failure (R132, R133). -/
  | txnWrite (k : BusKind) (c r : Nat) (data : List Byte)
  /-- The write of UPDATE, computed from the byte read (R136, R137). -/
  | txnUpdate (c r : Nat) (mask value : Byte)
  /-- `acquire ch[c].chLock` (R91). -/
  | acquireCh (c : Nat)
  /-- `release ch[c].chLock` (R91). -/
  | releaseCh (c : Nat)
  /-- `sleep(d)` (R296). -/
  | sleep (d : Nat)
  /-- `ctl.dlabWindow <- Some(g, c)` (R156). -/
  | openWindow (c : Nat)
  /-- `ctl.dlabWindow <- None` (R156). -/
  | closeWindow
  /-- The four writes of the divisor sequence, from the LCR byte read (R156, R158). -/
  | divisorWrites (c : Nat) (d : Half)
  /-- The checks of SET_LINE, its rejections, and the entry of its locked part (R162, R163). -/
  | setLineStart (c : Nat) (p : LineParams)
  /-- `ch[c].readStatusMask <- m` (R163). -/
  | setReadStatusMask (c : Nat) (m : Byte)
  /-- `ch[c].ignoreMask <- m` (R163). -/
  | setIgnoreMask (c : Nat) (m : Byte)
  /-- The assignment of `forced` in FLOW_BODY (R224). -/
  | setFlow (c : Nat) (enabled : Bool)
  /-- The transaction of `WRITE(c, 0x04, mctrlReq | forced)`: the value is the one the channel holds when it is issued (R221). -/
  | txnMcr (c : Nat)
  /-- `emit` (R20). -/
  | emit (n : Notice)
  /-- `ch[c].txActive <- b`. -/
  | setTxActive (c : Nat) (b : Bool)
  /-- The start of a transmit session, with its pre-send delay (R216, R217). -/
  | beginSession (c : Nat)
  /-- The entry of TX_SETTLE (R211). -/
  | settle (c : Nat)
  /-- The transmitter-empty test of TX_SETTLE (R211). -/
  | settleLsr (c : Nat)
  /-- `ch[c].mctrlReq <- bits & 0x1F` (R220). -/
  | setMctrlReq (c : Nat) (bits : Byte)
  /-- `ch[c].forced <- ch[c].forced | OUT2` (R276). -/
  | forceOut2 (c : Nat)
  /-- `ch[c].life <- l` (R49). -/
  | setLife (c : Nat) (l : Life)
  /-- The wait of SHUTDOWN for the task agents (R279, R280). -/
  | awaitTasks (c : Nat)
  /-- The body of GET_STATUS (R222). -/
  | getStatus (c : Nat)
  /-- The body of RS485_GET (R226). -/
  | rs485Get (c : Nat)
  /-- The validity check of RS485_SET and the entry of its locked part (R227). -/
  | rs485Start (c : Nat) (cfg : Rs485)
  /-- `ch[c].rs485 <- cfg` (R227). -/
  | setRs485 (c : Nat) (cfg : Rs485)
  /-- The block's state takes its values at attach (R64, R270). -/
  | initState
  /-- ATTACH has ended (R273). -/
  | attachDone
  /-- A result is returned. -/
  | ret (r : Result)
  /-- The byte READ got is returned (R134). -/
  | retByte
  /-- The bytes BURST_READ got are returned (R140). -/
  | retBytes
  /-- The overrun test of the line-status poll (R173). -/
  | overrunCheck (c : Nat)
  /-- The dispatch on the identification byte (R174). -/
  | iirDispatch (c : Nat)
  /-- `ctl.ds <- d`. -/
  | setDs (d : DState)
  /-- The FIFO-error test of the receive service (R191). -/
  | rlsCheck (c : Nat)
  /-- The data-ready test of the wait loop (R193). -/
  | waitDrTest (c : Nat) (src : RxSource)
  /-- CLASSIFY of the byte read, and the receive sub-state that follows (R191, R194, R196). -/
  | classify (c : Nat) (l : Byte) (src : RxSource) (after : RxStage)
  /-- The continue test (R195). -/
  | reLsrTest (c : Nat) (src : RxSource)
  /-- The flush (R197). -/
  | flush (c : Nat)
  /-- The modem-status byte is cached (R210). -/
  | cacheMsr (c : Nat)
  /-- The entry of the transmit service (R200). -/
  | txEntry (c : Nat)
  /-- The control-byte path (R203). -/
  | txXChar (c : Nat)
  /-- The end of the control-byte path (R203). -/
  | txXCharDone (c : Nat)
  /-- The nothing-to-send test (R205). -/
  | txCheck (c : Nat)
  /-- The burst (R206, R207). -/
  | txBurst (c : Nat)
  /-- The end of the burst (R207). -/
  | txBurstDone (c n : Nat)
  /-- The wake test (R208). -/
  | txWake (c : Nat)
  /-- The move to the next channel (R178). -/
  | nextCh (c : Nat)
  deriving DecidableEq, Repr, Inhabited

/-- The control state of one agent (R40, R228, R246): the statements still to run (none: Idle), the bytes its last read
returned, its pending requests, and whether a model fault has stopped it. -/
structure AgentCtl where
  code    : List Stmt := []
  acc     : List Byte := []
  pending : List Instr := []
  stopped : Bool := false
  deriving DecidableEq, Repr, Inhabited

/-- The five agents of one channel (R9). -/
structure ChanAgents where
  beginTx  : AgentCtl := {}
  stopTx   : AgentCtl := {}
  stopRx   : AgentCtl := {}
  setMctrl : AgentCtl := {}
  config   : AgentCtl := {}
  deriving DecidableEq, Repr, Inhabited

/-- Why the machine stops. -/
inductive Fault where
  /-- Raised by `step` alone, when the controller's parameters are ones the model refuses (R11, R13, R113). Safe: the model
  stops where no controller exists. -/
  | badParameters
  deriving DecidableEq, Repr, Inhabited

/-- Why the machine has no meaning for what is presented to it. -/
inductive Refusal where
  /-- An instruction without a meaning yet, raised by `exec`'s arms alone. Safe. -/
  | notModelled (mnemonic : String)
  /-- Raised by `step` for a transaction record without a command byte (R100). Safe. -/
  | noCommandByte
  /-- Raised by `step` for a command byte with bit 0 = 1 (R109, D4). Safe. -/
  | commandBitZeroSet (cmd : Byte)
  deriving DecidableEq, Repr, Inhabited

/-- The whole state (R30, R36, R40, R228). The last six fields are the model's own: the choices of the environment, the
oracle and the scheduler, as data (log 1, log 2). -/
structure State where
  params     : Params
  busLock    : Lock
  scratch    : List Byte
  ch         : List Chan
  sigPending : Bool
  ds         : DState
  dlabWindow : Option (Agent × Nat)
  faults     : List ModelFault
  disp       : AgentCtl
  tasks      : List ChanAgents
  attached   : Bool
  out        : List Obs
  inbox      : List Input
  oracle     : List Draw
  draws      : Nat
  inputs     : Nat
  turn       : Agent
  quantum    : Nat
  deriving DecidableEq, Repr, Inhabited

/-- A channel at attach (R64). -/
def Chan.init (p : Params) (c : Nat) : Chan :=
  { index := c, msrCache := none, forced := 0x00#8, mctrlReq := 0x00#8, rs485 := {}
    readStatusMask := p.initReadStatusMask, ignoreMask := p.initIgnoreMask
    txQueue := [], xChar := none, txStopped := false, counters := {}, chLock := .free
    txActive := false, life := .attached, rxBatch := [] }

/-- The block's state at attach, before ATTACH's register writes, for a controller of parameters `p` (R64, R270). -/
def State.atAttach (p : Params) : State :=
  { params := p, busLock := .free, scratch := (List.range Config.fifoDepth).map Config.scratchByte
    ch := (List.range p.nCh).map (Chan.init p), sigPending := false, ds := .idle, dlabWindow := none, faults := []
    disp := {}, tasks := List.replicate p.nCh {}, attached := false, out := [], inbox := [], oracle := [], draws := 0
    inputs := 0, turn := .config 0, quantum := 256 }

/-- The machine right after reset: this part's controller at attach (R64). -/
def State.reset : State := State.atAttach Config.params

end Sys2Proof.Machine
end

