-- ==== Sys2Proof/Machine/Flags.lean ====
section
/-! DEFINITION. The status bits the rules read, the decoding of the identification byte, and the classification of a received
byte (10_state R53, R55-R57, 30_encoding R112, 43_service R196). -/

namespace Sys2Proof.Machine

/-- LSR bit 0, data ready (R57). -/
def lsrDr (l : Byte) : Bool := l.has 0
/-- LSR bit 1, overrun (R57). -/
def lsrOe (l : Byte) : Bool := l.has 1
/-- LSR bit 6, transmitter empty (R57). -/
def lsrTemt (l : Byte) : Bool := l.has 6
/-- LSR bit 7, FIFO error (R57). -/
def lsrFifoErr (l : Byte) : Bool := l.has 7

/-- IER bit 1, the transmit-empty enable (R55). -/
def ierThre : Byte := 0x02#8
/-- The IER value of startup: receive data, line status, modem status (R277). -/
def ierStartup : Byte := bit 0 ||| bit 2 ||| bit 3

/-- What the dispatcher does on an identification byte (R112). -/
inductive IirAction where
  | noint | msi | thre | rda | rls | rto | unknown
  deriving DecidableEq, Repr

/-- DECODE_IIR (R112): total under any parameters (R113). -/
def decodeIir (p : IirParams) (v : Byte) : IirAction :=
  let id := v &&& p.idMask
  if v.has p.noIntBit then .noint
  else if id = p.msi then .msi
  else if id = p.thre then .thre
  else if id = p.rda then .rda
  else if id = p.rls then .rls
  else if id = p.rto then .rto
  else .unknown

/-- The error bits of LSR, OE, PE, FE and BI (R57). -/
def errBits : Byte := 0x1E#8

/-- The error bits of CLASSIFY after the break clear: a break clears PE and FE (R196). -/
def classifyErrors (l : Byte) : Byte :=
  let e := l &&& errBits
  if e.has 4 then e &&& ~~~(0x04#8 ||| 0x08#8) else e

/-- The counters after CLASSIFY (R196): total received; break, else parity, else frame; overrun on its own. -/
def classifyCounters (l : Byte) (k : Counters) : Counters :=
  let e := classifyErrors l
  { k with
    rx := k.rx + 1
    brk := k.brk + (if e.has 4 then 1 else 0)
    parity := k.parity + (if !e.has 4 && e.has 2 then 1 else 0)
    frame := k.frame + (if !e.has 4 && !e.has 2 && e.has 3 then 1 else 0)
    overrun := k.overrun + (if e.has 1 then 1 else 0) }

/-- The flag of the byte: break, then parity, then frame, of the reported conditions (R196). -/
def classifyFlag (l readStatusMask : Byte) : RxFlag :=
  let rep := classifyErrors l &&& readStatusMask
  if rep.has 4 then .brk else if rep.has 2 then .parity else if rep.has 3 then .frame else .normal

/-- The ignore test: PE, FE and BI against the ignore mask; a byte that meets it is not forwarded (R196, D20). -/
def classifyForwarded (l ignoreMask : Byte) : Bool :=
  (classifyErrors l &&& (0x04#8 ||| 0x08#8 ||| 0x10#8) &&& ignoreMask) == 0#8

end Sys2Proof.Machine
end

