-- ==== Sys2Proof/Machine/Operands.lean ====
section
/-! DEFINITION. The values the operations compute from their operands: the UPDATE value, the line-control byte, the divisor,
the modem-control bits (40_bus_ops R136, 41_baud R150-R162, 43_service R220, R224). -/

namespace Sys2Proof.Machine

/-- Offset of RHR, THR and DLL (R54). -/
def offData : Nat := 0
/-- Offset of IER and DLM (R54). -/
def offIer : Nat := 1
/-- Offset of IIR and FCR (R54). -/
def offIirFcr : Nat := 2
/-- Offset of LCR (R54). -/
def offLcr : Nat := 3
/-- Offset of MCR (R54). -/
def offMcr : Nat := 4
/-- Offset of LSR (R54). -/
def offLsr : Nat := 5
/-- Offset of MSR (R54). -/
def offMsr : Nat := 6

/-- The value UPDATE writes (R136). -/
def updateValue (old mask value : Byte) : Byte := (old &&& ~~~mask) ||| (value &&& mask)

/-- LCR bits 1:0 (R59, R160). -/
def wordLenBits : WordLen → Byte
  | .five => 0#8
  | .six => 1#8
  | .seven => 2#8
  | .eight => 3#8

/-- LCR bit 2: PRESUMED value order (R160, D38). -/
def stopBitsBits : StopBits → Byte
  | .one => 0x00#8
  | .two => 0x04#8

/-- LCR bits 5:3: parity enable, and the mode in the PRESUMED order (R160, D38). -/
def parityBits : Parity → Byte
  | .off => 0x00#8
  | .odd => 0x08#8
  | .even => 0x18#8
  | .mark => 0x28#8
  | .space => 0x38#8

/-- LCR_ENCODE (R160). -/
def lcrEncode (w : WordLen) (st : StopBits) (p : Parity) (brk : Bool) : Byte :=
  wordLenBits w ||| stopBitsBits st ||| parityBits p ||| (if brk then 0x40#8 else 0x00#8)

/-- The word length a line request names, if it is in its set (R162). -/
def wordLenOf : Nat → Option WordLen
  | 5 => some .five
  | 6 => some .six
  | 7 => some .seven
  | 8 => some .eight
  | _ => none

/-- The number of stop bits a line request names, if it is in its set (R162). -/
def stopBitsOf : Nat → Option StopBits
  | 1 => some .one
  | 2 => some .two
  | _ => none

/-- The LCR byte of a line request, the break bit 0; `none` when an operand is outside its set (R162, R163). -/
def lineLcr (p : LineParams) : Option Byte :=
  match wordLenOf p.wordLen, stopBitsOf p.stopBits, p.parity with
  | some w, some st, some q => some (lcrEncode w st q false)
  | _, _, _ => none

/-- The divisor before its range check (R150, R151). -/
def rawDivisor (clockHz target : Nat) : Nat := clockHz / (16 * target)

/-- The rounded achievable baud rate, a half rounding up (R150, R154). -/
def achievedBaud (clockHz d : Nat) : Nat := (clockHz + 8 * d) / (16 * d)

/-- COMPUTE_DIVISOR (R150). -/
def computeDivisor (clockHz target : Nat) : Except Rejection (Half × Nat) :=
  if target = 0 then .error (.baudOutOfRange target)
  else if rawDivisor clockHz target = 0 then .error (.baudOutOfRange target)
  else if 65535 < rawDivisor clockHz target then .error (.baudOutOfRange target)
  else .ok (BitVec.ofNat 16 (rawDivisor clockHz target), achievedBaud clockHz (rawDivisor clockHz target))

/-- The high byte of a divisor, DLM (R61, R156). -/
def divisorHigh (d : Half) : Byte := d.extractLsb' 8 8
/-- The low byte of a divisor, DLL (R61, R156). -/
def divisorLow (d : Half) : Byte := d.extractLsb' 0 8

/-- The control lines a request may ask for: DTR, RTS, OUT1, OUT2, LOOP (R220). -/
def mctrlMask (m : McrBits) : Byte := bit m.dtr ||| bit m.rts ||| bit m.out1 ||| bit m.out2 ||| bit m.loop

/-- `forced` after FLOW_BODY: enabling adds AFE and RTS, disabling clears AFE only (R224, D34). -/
def flowForced (m : McrBits) (enabled : Bool) (forced : Byte) : Byte :=
  if enabled then forced ||| bit m.afe ||| bit m.rts else forced &&& ~~~bit m.afe

end Sys2Proof.Machine
end

