-- ==== Sys2Proof/Machine/Code.lean ====
section
/-! DEFINITION. The pseudocode bodies of the operations as lists of statements, and the statements of each dispatcher control
state. In every body READ, WRITE, UPDATE and BURST_WRITE hold the bus lock for their own duration only (R130). -/

namespace Sys2Proof.Machine

/-- READ(c, r) (R134); the byte is left in the agent's `acc`. -/
def readCode (c r : Nat) : List Stmt := [.checkAddr c r, .acquireBus, .txnRead .read c r 1, .releaseBus]

/-- WRITE(c, r, v) (R135). -/
def writeCode (c r : Nat) (v : Byte) : List Stmt := [.checkAddr c r, .acquireBus, .txnWrite .write c r [v], .releaseBus]

/-- UPDATE(c, r, mask, value): the read and the write under one hold of the bus lock (R137). -/
def updateCode (c r : Nat) (mask value : Byte) : List Stmt :=
  [.checkAddr c r, .acquireBus, .txnRead .read c r 1, .txnUpdate c r mask value, .releaseBus]

/-- BURST_WRITE(c, start_reg, bytes) (R139). -/
def burstWriteCode (c startReg : Nat) (bytes : List Byte) : List Stmt :=
  [.checkBurstWrite c startReg bytes.length, .acquireBus, .txnWrite .burstWrite c offData bytes, .releaseBus]

/-- BURST_READ(c, n) (R140). -/
def burstReadCode (c n : Nat) : List Stmt :=
  [.checkBurstRead c n, .acquireBus, .txnRead .burstRead c offData n, .releaseBus]

/-- SET_DIVISOR(c, d) up to its LCR read; the writes follow from the byte read (R156). -/
def setDivisorCode (c : Nat) (d : Half) : List Stmt := .openWindow c :: readCode c offLcr ++ [.divisorWrites c d]

/-- The writes of SET_DIVISOR: the latch on, high byte, low byte, LCR restored (R156, R158). -/
def divisorWritesCode (c : Nat) (d : Half) (lcr : Byte) : List Stmt :=
  writeCode c offLcr (lcr ||| 0x80#8) ++ writeCode c offIer (divisorHigh d) ++ writeCode c offData (divisorLow d)
    ++ writeCode c offLcr lcr ++ [.closeWindow]

/-- `WRITE(c, 0x04, mctrlReq | forced)`; both are read when the transaction is issued (R221). -/
def mcrCode (c : Nat) : List Stmt := [.checkAddr c offMcr, .acquireBus, .txnMcr c, .releaseBus]

/-- FLOW_BODY(c, enabled) (R224). -/
def flowCode (c : Nat) (enabled : Bool) : List Stmt :=
  .setFlow c enabled :: mcrCode c ++ (if enabled then [.emit (.ctsChange c true)] else [])

/-- SET_LINE's part under the channel lock (R163). The achieved rate is returned, as R163 has it; R114's table gives no result
(DEDUCED, log 30). -/
def setLineLockedCode (c : Nat) (p : LineParams) (lcr : Byte) (d : Half) (achieved : Nat) : List Stmt :=
  [.acquireCh c, .setReadStatusMask c p.readStatusMask, .setIgnoreMask c p.ignoreMask] ++ writeCode c offLcr lcr
    ++ setDivisorCode c d ++ flowCode c p.flow ++ [.releaseCh c, .ret (.baud achieved)]

/-- The end of TX_SETTLE: the THRE interrupt disabled, the session over (R211). -/
def settleTailCode (c : Nat) : List Stmt := updateCode c offIer ierThre 0x00#8 ++ [.setTxActive c false]

/-- BEGIN_TX(c) (R216). -/
def beginTxCode (c : Nat) : List Stmt :=
  [.acquireCh c, .beginSession c] ++ updateCode c offIer ierThre ierThre ++ [.releaseCh c]

/-- STOP_TX(c) (R218). -/
def stopTxCode (c : Nat) : List Stmt := [.acquireCh c, .settle c, .releaseCh c]

/-- STOP_RX(c) (R219). -/
def stopRxCode (p : Params) (c : Nat) : List Stmt := updateCode c offIer p.stopRxMask 0x00#8

/-- SET_MCTRL(c, bits) (R220). -/
def setMctrlCode (c : Nat) (bits : Byte) : List Stmt := .setMctrlReq c bits :: mcrCode c

/-- CONFIG_FLOW(c, enabled) (R224). -/
def configFlowCode (c : Nat) (enabled : Bool) : List Stmt := .acquireCh c :: flowCode c enabled ++ [.releaseCh c]

/-- RS485_SET's part under the channel lock (R227). -/
def rs485LockedCode (c : Nat) (cfg : Rs485) : List Stmt := [.acquireCh c, .setRs485 c cfg, .releaseCh c]

/-- ATTACH's three writes on channel `c` (R274). -/
def attachChanCode (p : Params) (c : Nat) : List Stmt :=
  writeCode c offIer 0x00#8 ++ writeCode c offMcr 0x00#8 ++ writeCode c offIirFcr p.fcrReset

/-- ATTACH (R270, R273, R274). The state takes its values at attach before the first write, and what arrives during the writes is
kept, so a signal may be pending when ATTACH ends: DESIGN CHOICE (log 33; R274 names no point for it). -/
def attachCode (p : Params) : List Stmt :=
  .initState :: (List.range p.nCh).flatMap (attachChanCode p) ++ [.attachDone]

/-- STARTUP(c) (R276). -/
def startupCode (p : Params) (c : Nat) : List Stmt :=
  .acquireCh c :: writeCode c offIirFcr p.fcrReset ++ [.sleep p.fifoResetDelay] ++ writeCode c offIirFcr p.fcrEnable
    ++ writeCode c offLcr (lcrEncode .eight .one .off false) ++ writeCode c offIer ierStartup
    ++ [.forceOut2 c] ++ mcrCode c ++ [.setTxActive c false, .setLife c .opened, .releaseCh c]

/-- `powerDownSeq(c)` (R280, D42). -/
def powerDownCode (p : Params) (c : Nat) : List Stmt :=
  (p.powerDownSeq.filter fun w => w.chan == c).flatMap fun w => writeCode c w.reg w.value

/-- SHUTDOWN(c): the IER write on channel 0 only (R280, R281). -/
def shutdownCode (p : Params) (c : Nat) : List Stmt :=
  (if c = 0 then writeCode c offIer 0x00#8 else []) ++ [.awaitTasks c, .acquireCh c] ++ writeCode c offMcr 0x00#8
    ++ powerDownCode p c ++ [.setTxActive c false, .setLife c .shut, .releaseCh c]

/-- The statements of a request. The operations the dispatcher performs on its own control state, and SIGNAL, are no
requests of an agent and have none. SET_DIVISOR and TX_SETTLE run under the channel lock (R157, R211), which a request of them
takes and releases (log 17). -/
def requestCode (p : Params) : Instr → List Stmt
  | .read c r => readCode c r ++ [.retByte]
  | .write c r v => writeCode c r v
  | .burstWrite c startReg bytes => burstWriteCode c startReg bytes
  | .burstRead c n => burstReadCode c n ++ [.retBytes]
  | .iirNoint _ => []
  | .iirMsi _ => []
  | .iirThre _ => []
  | .iirRda _ => []
  | .iirRls _ => []
  | .iirRto _ => []
  | .iirUnknown08 _ => []
  | .iirUnknown0A _ => []
  | .iirUnknown0E _ => []
  | .update c r mask value => updateCode c r mask value
  | .computeDivisor clockHz target =>
    match computeDivisor clockHz target with
    | .ok (d, achieved) => [.ret (.divisor d achieved)]
    | .error e => [.ret (.rejected e)]
  | .setDivisor c d => .acquireCh c :: setDivisorCode c d ++ [.releaseCh c]
  | .lcrEncode w st q brk => [.ret (.byte (lcrEncode w st q brk))]
  | .setLine c q => [.setLineStart c q]
  | .signal => []
  | .dispatchPass => []
  | .rxService _ _ => []
  | .txService _ => []
  | .msiService _ => []
  | .txSettle c => stopTxCode c
  | .beginTx c => beginTxCode c
  | .stopTx c => stopTxCode c
  | .stopRx c => stopRxCode p c
  | .setMctrl c bits => setMctrlCode c bits
  | .getStatus c => [.getStatus c]
  | .configFlow c enabled => configFlowCode c enabled
  | .rs485Get c => [.rs485Get c]
  | .rs485Set c cfg => [.rs485Start c cfg]
  | .attach => attachCode p
  | .startup c => startupCode p c
  | .shutdown c => shutdownCode p c

/-- The statements of a dispatcher control state (R172-R178, R190-R210). -/
def dispatchCode : DState → List Stmt
  | .idle => []
  | .pollLsr c => readCode c offLsr ++ [.overrunCheck c]
  | .readIir c => readCode c offIirFcr ++ [.iirDispatch c]
  | .rx c .rls .start => readCode c offLsr ++ [.rlsCheck c]
  | .rx c .rda .start => [.setDs (.rx c .rda .waitDr)]
  | .rx c .rto .start => [.setDs (.rx c .rto .waitDr)]
  | .rx c src .waitDr => readCode c offLsr ++ [.waitDrTest c src]
  | .rx c src (.byte l) => readCode c offData ++ [.classify c l src .reLsr]
  | .rx c src .reLsr => readCode c offLsr ++ [.reLsrTest c src]
  | .rx c _ .flush => [.flush c]
  | .msi c => readCode c offMsr ++ [.cacheMsr c]
  | .txLock c => [.acquireCh c, .setDs (.tx c .start)]
  | .tx c .start => [.txEntry c]
  | .tx c .xChar => [.txXChar c]
  | .tx c .check => [.txCheck c]
  | .tx c .settle => [.settle c, .setDs (.tx c .done)]
  | .tx c .burst => [.txBurst c]
  | .tx c .wake => [.txWake c]
  | .tx c .done => [.releaseCh c, .setDs (.pollLsr c)]
  | .nextCh c => [.nextCh c]

end Sys2Proof.Machine
end

