-- ==== Sys2Proof/Machine/Ops.lean ====
section
/-! DEFINITION. The shared operations over the state: channels, agents, locks, the transaction primitive with its hazard checks
and oracle, raising a model fault, running an agent's statements, and starting requests and passes. -/

namespace Sys2Proof.Machine

/-! ## Channels and agents -/

/-- `ch[c]`; a channel that does not exist reads as a default record, and no rule reads one (R37, R131). -/
def State.chan (s : State) (c : Nat) : Chan := s.ch.getD c default

/-- `ch[c] <- x`; no effect where channel `c` does not exist. -/
def State.setChan (s : State) (c : Nat) (x : Chan) : State := { s with ch := s.ch.set c x }

/-- The agents of channel `c`. -/
def State.chanAgents (s : State) (c : Nat) : ChanAgents := s.tasks.getD c {}

/-- The control state of agent `g` (R40). -/
def State.agent (s : State) : Agent → AgentCtl
  | .dispatcher => s.disp
  | .beginTx c => (s.chanAgents c).beginTx
  | .stopTx c => (s.chanAgents c).stopTx
  | .stopRx c => (s.chanAgents c).stopRx
  | .setMctrl c => (s.chanAgents c).setMctrl
  | .config c => (s.chanAgents c).config

/-- The control state of agent `g` becomes `a`; no effect where the agent does not exist. -/
def State.setAgent (s : State) (g : Agent) (a : AgentCtl) : State :=
  match g with
  | .dispatcher => { s with disp := a }
  | .beginTx c => { s with tasks := s.tasks.set c { s.chanAgents c with beginTx := a } }
  | .stopTx c => { s with tasks := s.tasks.set c { s.chanAgents c with stopTx := a } }
  | .stopRx c => { s with tasks := s.tasks.set c { s.chanAgents c with stopRx := a } }
  | .setMctrl c => { s with tasks := s.tasks.set c { s.chanAgents c with setMctrl := a } }
  | .config c => { s with tasks := s.tasks.set c { s.chanAgents c with config := a } }

/-- Agent `g` goes on with the statements `code`. -/
def State.goOn (s : State) (g : Agent) (code : List Stmt) : State := s.setAgent g { s.agent g with code := code }

/-- The byte agent `g` read last. -/
def State.readByte (s : State) (g : Agent) : Byte := (s.agent g).acc.headD 0#8

/-- The block shows `l` (R25). -/
def State.show (s : State) (l : List Obs) : State := { s with out := s.out ++ l }

/-- `ctl.busLock <- l`. -/
def State.withBus (s : State) (l : Lock) : State := { s with busLock := l }

/-- `ctl.ds <- d`. -/
def State.withDs (s : State) (d : DState) : State := { s with ds := d }

/-- `ctl.dlabWindow <- w`. -/
def State.withWindow (s : State) (w : Option (Agent × Nat)) : State := { s with dlabWindow := w }

/-- `ctl.scratch <- l`. -/
def State.withScratch (s : State) (l : List Byte) : State := { s with scratch := l }

/-- `F` joins the set of faults (R246). -/
def State.addFault (s : State) (f : ModelFault) : State :=
  { s with faults := if f ∈ s.faults then s.faults else s.faults ++ [f] }

/-- The bus lock is released if agent `g` holds it. -/
def State.dropBus (s : State) (g : Agent) : State := if s.busLock = .held g then s.withBus .free else s

/-- Agent `g` is idle: no operation in progress, and no fault has stopped it (R40, R246). -/
def State.isIdle (s : State) (g : Agent) : Bool := (s.agent g).code.isEmpty && !(s.agent g).stopped

/-- Agent `g` may step: no fault has stopped it (R246), and until ATTACH has ended only the agent that runs ATTACH steps
(R273). -/
def State.canStep (s : State) (g : Agent) : Bool := !(s.agent g).stopped && (s.attached || g == .config 0)

/-! ## Model faults -/

/-- `raise F` (R246): `F` joins the set of faults and agent `g` stops. The bus lock, if `g` holds it, is released (R130);
channel locks stay held. Nothing returns from a fault: it is never removed. -/
def State.raise (s : State) (g : Agent) (f : ModelFault) : State :=
  ((s.addFault f).dropBus g).setAgent g { s.agent g with stopped := true }

/-! ## Transactions -/

/-- The window check: a transaction of another agent inside the divisor window (R285). -/
def State.dlabBroken (s : State) (g : Agent) (c : Nat) : Bool :=
  match s.dlabWindow with
  | none => false
  | some (g0, c0) => g != g0 && (s.params.dlabScope == .anyChannel || c == c0)

/-- The shutdown check: a write on a shut channel by the dispatcher or a deferred task (R286). -/
def State.shutBroken (s : State) (g : Agent) (c : Nat) (cmd : Byte) : Bool :=
  cmdIsWrite cmd && (s.chan c).life == .shut && (g == .dispatcher || g.isDeferred)

/-- The hazard checks before a transaction, in their order (R132, R255). -/
def State.hazard (s : State) (g : Agent) (c : Nat) (cmd : Byte) : Option ModelFault :=
  if s.dlabBroken g c then some (.dlabHazard g cmd)
  else if s.shutBroken g c cmd then some (.postShutdownWrite c cmd)
  else none

/-- Whether the next transaction succeeds (R132): the oracle's next answer, or a free value. -/
def State.drawOk (s : State) : Bool :=
  match s.oracle with
  | d :: _ => d.ok
  | [] => Config.oracleOk s.out s.draws

/-- The `n` bytes the next transaction brings in (R84): the oracle's next answer; a byte it does not give is a free value. -/
def State.drawBytes (s : State) (n : Nat) : List Byte :=
  (List.range n).map fun i =>
    match s.oracle with
    | d :: _ => d.bytes.getD i (Config.oracleByte s.out s.draws i)
    | [] => Config.oracleByte s.out s.draws i

/-- What a transaction shows: its record, and the BusError log when it failed (R132, R133). The log is shown in the transaction's
own step, though the pseudocode has it as the next statement: DESIGN CHOICE (log 31). -/
def txnObs (g : Agent) (k : BusKind) (c r : Nat) (cmd : Byte) (data : List Byte) (ok : Bool) : List Obs :=
  .txn { agent := g, cmd := cmd, data := data, ok := ok } :: (if ok then [] else [.log (.busError k c r)])

/-- A transaction has taken its answer. -/
def State.drawn (s : State) : State := { s with oracle := s.oracle.tail, draws := s.draws + 1 }

/-- What a read transaction of `n` bytes leaves: it is shown, and its answer is taken (R132). -/
def State.received (s : State) (g : Agent) (k : BusKind) (c r n : Nat) : State :=
  (s.show (txnObs g k c r (readCmd c r) (s.drawBytes n) s.drawOk)).drawn

/-- What a write transaction leaves: it is shown, and its answer is taken (R132). -/
def State.sent (s : State) (g : Agent) (k : BusKind) (c r : Nat) (data : List Byte) : State :=
  (s.show (txnObs g k c r (writeCmd c r) data s.drawOk)).drawn

/-- The read transaction, one step of the agent that holds the bus lock (R132, R133). -/
def State.txnRead (s : State) (g : Agent) (k : BusKind) (c r n : Nat) (rest : List Stmt) : State :=
  if s.busLock = .held g then
    match s.hazard g c (readCmd c r) with
    | some f => s.raise g f
    | none => (s.received g k c r n).setAgent g { s.agent g with code := rest, acc := s.drawBytes n }
  else s

/-- The write transaction, one step of the agent that holds the bus lock (R132, R133). -/
def State.txnWrite (s : State) (g : Agent) (k : BusKind) (c r : Nat) (data : List Byte) (rest : List Stmt) : State :=
  if s.busLock = .held g then
    match s.hazard g c (writeCmd c r) with
    | some f => s.raise g f
    | none => (s.sent g k c r data).goOn g rest
  else s

/-! ## Locks -/

/-- `acquire ctl.busLock`: a step only while it is free (R91). -/
def State.acquireBus (s : State) (g : Agent) (rest : List Stmt) : State :=
  match s.busLock with
  | .free => (s.withBus (.held g)).goOn g rest
  | .held _ => s

/-- `release ctl.busLock`: a step of the holder only (R91). -/
def State.releaseBus (s : State) (g : Agent) (rest : List Stmt) : State :=
  if s.busLock = .held g then (s.withBus .free).goOn g rest else s

/-- `acquire ch[c].chLock`: a step only while it is free (R91). -/
def State.acquireCh (s : State) (g : Agent) (c : Nat) (rest : List Stmt) : State :=
  match (s.chan c).chLock with
  | .free => (s.setChan c { s.chan c with chLock := .held g }).goOn g rest
  | .held _ => s

/-- `release ch[c].chLock`: a step of the holder only (R91). -/
def State.releaseCh (s : State) (g : Agent) (c : Nat) (rest : List Stmt) : State :=
  if (s.chan c).chLock = .held g then (s.setChan c { s.chan c with chLock := .free }).goOn g rest else s

/-! ## The dispatcher's statements -/

/-- The dispatcher's control state becomes `d`, and agent `g` goes on with `rest`. -/
def State.goDs (s : State) (g : Agent) (d : DState) (rest : List Stmt) : State := (s.withDs d).goOn g rest

/-- The dispatch on identification byte `v` of channel `c` with action `a` (R174). For an unknown code the log and the move to
`NextCh` are one step: DESIGN CHOICE (log 32). -/
def State.dispatchOn (s : State) (g : Agent) (c : Nat) (v : Byte) (a : IirAction) (rest : List Stmt) : State :=
  match a with
  | .noint => s.goDs g (.nextCh c) rest
  | .msi => s.goDs g (.msi c) rest
  | .thre => s.goDs g (.txLock c) rest
  | .rda => s.goDs g (.rx c .rda .start) rest
  | .rls => s.goDs g (.rx c .rls .start) rest
  | .rto => s.goDs g (.rx c .rto .start) rest
  | .unknown => (s.show [.log (.unexpectedInterruptSource c v)]).goDs g (.nextCh c) rest

/-- CLASSIFY on the channel's record: the counters, and the byte with its flag if it is forwarded (R196). -/
def Chan.classify (x : Chan) (b l : Byte) : Chan :=
  { x with
    counters := classifyCounters l x.counters
    rxBatch := if classifyForwarded l x.ignoreMask then x.rxBatch ++ [(b, classifyFlag l x.readStatusMask)] else x.rxBatch }

/-- CLASSIFY(c, b, l) (R196). -/
def State.classify (s : State) (c : Nat) (b l : Byte) : State := s.setChan c ((s.chan c).classify b l)

/-- The flush of the receive batch and the end of the receive service (R175, R197). -/
def State.flush (s : State) (g : Agent) (c : Nat) (rest : List Stmt) : State :=
  ((s.show (if (s.chan c).rxBatch.isEmpty then [] else [.emit (.rxBatch c (s.chan c).rxBatch)])).setChan c
    { s.chan c with rxBatch := [] }).goDs g (.pollLsr c) rest

/-- The bytes of the next burst: at most 16, from the front of the queue (R206). -/
def State.burstBytes (s : State) (c : Nat) : List Byte := (s.chan c).txQueue.take Config.fifoDepth

/-- The burst (R206, R207): at most 16 bytes from the front of the queue, through the scratch buffer. -/
def State.txBurst (s : State) (g : Agent) (c : Nat) (rest : List Stmt) : State :=
  (s.withScratch (s.burstBytes c ++ s.scratch.drop (s.burstBytes c).length)).goOn g
    (burstWriteCode c offData (s.burstBytes c) ++ Stmt.txBurstDone c (s.burstBytes c).length :: rest)

/-- The queue and the counter after a burst of `n` bytes (R207). -/
def State.txBurstDone (s : State) (g : Agent) (c n : Nat) (rest : List Stmt) : State :=
  (s.setChan c { s.chan c with
    txQueue := (s.chan c).txQueue.drop n
    counters := { (s.chan c).counters with tx := (s.chan c).counters.tx + n } }).goDs g (.tx c .wake) rest

/-- The end of the control-byte path (R203, D54). -/
def State.txXCharDone (s : State) (g : Agent) (c : Nat) (rest : List Stmt) : State :=
  (s.setChan c { s.chan c with
    xChar := none
    counters := { (s.chan c).counters with tx := (s.chan c).counters.tx + 1 } }).goDs g (.tx c .done) rest

/-- The move to the next channel; after the last one the pass ends (R178, R258). -/
def State.nextCh (s : State) (g : Agent) (c : Nat) (rest : List Stmt) : State :=
  s.goDs g (if c + 1 < s.params.nCh then .pollLsr (c + 1) else .idle) rest

/-! ## The host tasks' statements -/

/-- The start of a transmit session: the pre-send delay once, then the session marked (R216, R217). -/
def State.beginSession (s : State) (g : Agent) (c : Nat) (rest : List Stmt) : State :=
  if (s.chan c).txActive then s.goOn g rest
  else if (s.chan c).rs485.enabled && decide (0 < (s.chan c).rs485.preDelay) then
    s.goOn g (.sleep (s.chan c).rs485.preDelay :: .setTxActive c true :: rest)
  else s.goOn g (.setTxActive c true :: rest)

/-- The entry of TX_SETTLE (R211). -/
def State.settle (s : State) (g : Agent) (c : Nat) (rest : List Stmt) : State :=
  if (s.chan c).rs485.enabled then s.goOn g (readCode c offLsr ++ .settleLsr c :: rest)
  else s.goOn g (settleTailCode c ++ rest)

/-- TX_SETTLE after its LSR read: deferred while the transmitter is not empty; the post-send delay only if the queue is
empty (R211, D28, D51). -/
def State.settleLsr (s : State) (g : Agent) (c : Nat) (rest : List Stmt) : State :=
  if !lsrTemt (s.readByte g) then s.goOn g rest
  else if (s.chan c).txQueue.isEmpty then s.goOn g (.sleep (s.chan c).rs485.postDelay :: settleTailCode c ++ rest)
  else s.goOn g (settleTailCode c ++ rest)

/-- The checks of SET_LINE before its lock: a rejection changes no state (R162, R163, D39). -/
def State.setLineStart (s : State) (g : Agent) (c : Nat) (p : LineParams) (rest : List Stmt) : State :=
  match lineLcr p with
  | none => (s.show [.result g (.rejected .invalidControlRequest)]).goOn g rest
  | some lcr =>
    match computeDivisor s.params.clockHz p.baud with
    | .error e => (s.show [.result g (.rejected e)]).goOn g rest
    | .ok (d, achieved) => s.goOn g (setLineLockedCode c p lcr d achieved ++ rest)

/-- The check of RS485_SET before its lock (R227). -/
def State.rs485Start (s : State) (g : Agent) (c : Nat) (cfg : Rs485) (rest : List Stmt) : State :=
  if Config.rs485Valid cfg then s.goOn g (rs485LockedCode c cfg ++ rest)
  else (s.show [.result g (.rejected .invalidControlRequest)]).goOn g rest

/-- GET_STATUS: the cached byte decoded, or MsrUnknown (R222). -/
def State.getStatus (s : State) (g : Agent) (c : Nat) (rest : List Stmt) : State :=
  match (s.chan c).msrCache with
  | some m => (s.show [.result g (.lines (Config.msrDecode m))]).goOn g rest
  | none => s.raise g (.msrUnknown c)

/-- The four task agents of channel `c` are idle. -/
def ChanAgents.tasksIdle (a : ChanAgents) : Bool :=
  a.beginTx.code.isEmpty && a.stopTx.code.isEmpty && a.stopRx.code.isEmpty && a.setMctrl.code.isEmpty

/-- The four task agents lose their pending requests. -/
def ChanAgents.dropTasks (a : ChanAgents) : ChanAgents :=
  { a with
    beginTx := { a.beginTx with pending := [] }
    stopTx := { a.stopTx with pending := [] }
    stopRx := { a.stopRx with pending := [] }
    setMctrl := { a.setMctrl with pending := [] } }

/-- The four task agents of channel `c` lose their pending requests. -/
def State.dropTasks (s : State) (c : Nat) : State := { s with tasks := s.tasks.set c (s.chanAgents c).dropTasks }

/-- SHUTDOWN's wait: the pending requests of the four task agents are dropped, and SHUTDOWN goes on once they are idle
(R279, R280, D42). -/
def State.awaitTasks (s : State) (g : Agent) (c : Nat) (rest : List Stmt) : State :=
  if (s.chanAgents c).tasksIdle then (s.dropTasks c).goOn g rest else s.dropTasks c

/-- An agent at attach: idle, nothing pending; a fault has stopped it for good (R246). -/
def AgentCtl.atAttach (a : AgentCtl) : AgentCtl := { stopped := a.stopped }

/-- The agents of one channel at attach. -/
def ChanAgents.atAttach (a : ChanAgents) : ChanAgents :=
  { beginTx := a.beginTx.atAttach, stopTx := a.stopTx.atAttach, stopRx := a.stopRx.atAttach
    setMctrl := a.setMctrl.atAttach, config := a.config.atAttach }

/-- The block's state takes its values at attach (R64, R270); faults are never removed and the agents they stopped stay
stopped (R246), and the agent that runs ATTACH keeps its own control state (log 13). -/
def State.initState (s : State) (g : Agent) (rest : List Stmt) : State :=
  { s with
    busLock := .free
    ch := (List.range s.params.nCh).map (Chan.init s.params)
    sigPending := false
    ds := .idle
    dlabWindow := none
    disp := s.disp.atAttach
    tasks := s.tasks.map ChanAgents.atAttach
    attached := false }.setAgent g { s.agent g with code := rest }

/-! ## One statement -/

/-- Agent `g` runs the statement `m`, with `rest` to run after it. A statement that has to wait leaves the state as it is. Some
statements do several lines of the pseudocode in their one step, among them `txnUpdate` (the value of UPDATE and its write),
`checkBurstWrite` and `checkBurstRead` (all the checks before the lock) and `overrunCheck` (the log and the move to `ReadIir`):
DESIGN CHOICE (log 32, which lists them all). -/
def State.doStmt (s : State) (g : Agent) (m : Stmt) (rest : List Stmt) : State :=
  match m with
  | .checkAddr c r => if c < s.params.nCh ∧ r < 8 then s.goOn g rest else s.raise g (.badAddress c (some r))
  | .checkBurstWrite c startReg n =>
    if ¬ c < s.params.nCh then s.raise g (.badAddress c (some startReg))
    else if startReg ≠ 0 ∨ n = 0 ∨ Config.fifoDepth < n then s.raise g (.badBurst c startReg n)
    else s.goOn g rest
  | .checkBurstRead c n =>
    if ¬ c < s.params.nCh then s.raise g (.badAddress c (some offData))
    else if n = 0 then s.raise g (.badBurst c 0 0)
    else s.goOn g rest
  | .acquireBus => s.acquireBus g rest
  | .releaseBus => s.releaseBus g rest
  | .txnRead k c r n => s.txnRead g k c r n rest
  | .txnWrite k c r data => s.txnWrite g k c r data rest
  | .txnUpdate c r mask value => s.txnWrite g .write c r [updateValue (s.readByte g) mask value] rest
  | .acquireCh c => s.acquireCh g c rest
  | .releaseCh c => s.releaseCh g c rest
  | .sleep d => (s.show [.sleep g d]).goOn g rest
  | .openWindow c => (s.withWindow (some (g, c))).goOn g rest
  | .closeWindow => (s.withWindow none).goOn g rest
  | .divisorWrites c d => s.goOn g (divisorWritesCode c d (s.readByte g) ++ rest)
  | .setLineStart c p => s.setLineStart g c p rest
  | .setReadStatusMask c m => (s.setChan c { s.chan c with readStatusMask := m }).goOn g rest
  | .setIgnoreMask c m => (s.setChan c { s.chan c with ignoreMask := m }).goOn g rest
  | .setFlow c enabled =>
    (s.setChan c { s.chan c with forced := flowForced s.params.mcr enabled (s.chan c).forced }).goOn g rest
  | .txnMcr c => s.txnWrite g .write c offMcr [(s.chan c).mctrlReq ||| (s.chan c).forced] rest
  | .emit n => (s.show [.emit n]).goOn g rest
  | .setTxActive c b => (s.setChan c { s.chan c with txActive := b }).goOn g rest
  | .beginSession c => s.beginSession g c rest
  | .settle c => s.settle g c rest
  | .settleLsr c => s.settleLsr g c rest
  | .setMctrlReq c bits => (s.setChan c { s.chan c with mctrlReq := bits &&& mctrlMask s.params.mcr }).goOn g rest
  | .forceOut2 c => (s.setChan c { s.chan c with forced := (s.chan c).forced ||| bit s.params.mcr.out2 }).goOn g rest
  | .setLife c l => (s.setChan c { s.chan c with life := l }).goOn g rest
  | .awaitTasks c => s.awaitTasks g c rest
  | .getStatus c => s.getStatus g c rest
  | .rs485Get c => (s.show [.result g (.rs485 (s.chan c).rs485)]).goOn g rest
  | .rs485Start c cfg => s.rs485Start g c cfg rest
  | .setRs485 c cfg => (s.setChan c { s.chan c with rs485 := cfg }).goOn g rest
  | .initState => s.initState g rest
  | .attachDone => { s with attached := true }.goOn g rest
  | .ret r => (s.show [.result g r]).goOn g rest
  | .retByte => (s.show [.result g (.byte (s.readByte g))]).goOn g rest
  | .retBytes => (s.show [.result g (.bytes (s.agent g).acc)]).goOn g rest
  | .overrunCheck c =>
    (s.show (if lsrOe (s.readByte g) then [.log (.overrunSeen c)] else [])).goDs g (.readIir c) rest
  | .iirDispatch c => s.dispatchOn g c (s.readByte g) (decodeIir s.params.iir (s.readByte g)) rest
  | .setDs d => s.goDs g d rest
  | .rlsCheck c =>
    if lsrFifoErr (s.readByte g) then s.goOn g (readCode c offData ++ .classify c (s.readByte g) .rls .flush :: rest)
    else s.goDs g (.rx c .rls .waitDr) rest
  | .waitDrTest c src => s.goDs g (.rx c src (if lsrDr (s.readByte g) then .byte (s.readByte g) else .waitDr)) rest
  | .classify c l src after => (s.classify c (s.readByte g) l).goDs g (.rx c src after) rest
  | .reLsrTest c src => s.goDs g (.rx c src (if lsrDr (s.readByte g) then .byte (s.readByte g) else .flush)) rest
  | .flush c => s.flush g c rest
  | .cacheMsr c => (s.setChan c { s.chan c with msrCache := some (s.readByte g) }).goDs g (.pollLsr c) rest
  | .txEntry c => s.goDs g (.tx c (if (s.chan c).xChar.isSome then .xChar else .check)) rest
  | .txXChar c =>
    match (s.chan c).xChar with
    | some b => s.goOn g (writeCode c offData b ++ .txXCharDone c :: rest)
    | none => s
  | .txXCharDone c => s.txXCharDone g c rest
  | .txCheck c =>
    s.goDs g (.tx c (if (s.chan c).txQueue.isEmpty || (s.chan c).txStopped then .settle else .burst)) rest
  | .txBurst c => s.txBurst g c rest
  | .txBurstDone c n => s.txBurstDone g c n rest
  | .txWake c =>
    (s.show (if (s.chan c).txQueue.length < s.params.lowWater then [.emit (.wakeWriters c)] else [])).goDs g (.tx c .done) rest
  | .nextCh c => s.nextCh g c rest

/-- The statements agent `g` has to run: its operation's, or, for the dispatcher between two control states, those of its
control state (R40, R170). -/
def State.nextCode (s : State) (g : Agent) : List Stmt :=
  match (s.agent g).code with
  | [] => if g = .dispatcher then dispatchCode s.ds else []
  | m :: rest => m :: rest

/-- One step of agent `g`: one statement, if it may step and has one (R40). -/
def State.agentStep (s : State) (g : Agent) : State :=
  if s.canStep g then
    match s.nextCode g with
    | [] => s
    | m :: rest => s.doStmt g m rest
  else s

/-- Agent `g` takes up to `n` steps, as long as `p` holds. -/
def State.runWhile (p : State → Bool) : Nat → Agent → State → State
  | 0, _, s => s
  | n + 1, g, s => if p s then State.runWhile p n g (s.agentStep g) else s

/-! ## Requests, passes and turns -/

/-- Agent `g` has statements of an operation to run. -/
def State.hasCode (g : Agent) (s : State) : Bool := !(s.agent g).code.isEmpty

/-- The request an agent starts next: the first one (R228); before ATTACH has ended, only ATTACH (R273). -/
def nextRequest (attached : Bool) (pending : List Instr) : Option (Instr × List Instr) :=
  if attached then
    match pending with
    | [] => none
    | i :: rest => some (i, rest)
  else if .attach ∈ pending then some (.attach, pending.erase .attach) else none

/-- Agent `g` starts its next request (R228). -/
def State.startNext (s : State) (g : Agent) : State :=
  match nextRequest s.attached (s.agent g).pending with
  | none => s
  | some (i, rest) => s.setAgent g { s.agent g with code := requestCode s.params i, pending := rest }

/-- A request joins agent `g`'s pending list (R228). -/
def State.enqueue (s : State) (g : Agent) (i : Instr) : State :=
  s.setAgent g { s.agent g with pending := (s.agent g).pending ++ [i] }

/-- Agent `g` may start a request: it is idle, and the dispatcher is in no pass (DESIGN CHOICE, log 29: R185 leaves no room for
another operation in a pass). -/
def State.accepts (s : State) (g : Agent) : Bool := s.isIdle g && (g != .dispatcher || s.ds == .idle)

/-- Operation `i` is requested of agent `g`: it joins the pending list (R228). With a quantum of 0 that is all; with more, an
agent that may start a request starts its next one and runs for the quantum, or to the end of the operation (R10). -/
def State.request (s : State) (g : Agent) (i : Instr) : State :=
  if s.accepts g && decide (0 < s.quantum) then
    State.runWhile (State.hasCode g) s.quantum g ((s.enqueue g i).startNext g)
  else s.enqueue g i

/-- A request about channel `c` of the agent `g` of that channel. For a channel that does not exist BadAddress is recorded; it
has no agent to stop (R110, R131, log 5). No fault arises before ATTACH has ended (R273). -/
def State.requestOn (s : State) (c : Nat) (g : Agent) (i : Instr) : State :=
  if c < s.params.nCh then s.request g i else if s.attached then s.addFault (.badAddress c none) else s

/-- Pass entry (R172, R257): nothing is saved and nothing is masked. -/
def State.passStart (s : State) : State := { s with sigPending := false, ds := .pollLsr 0 }

/-- The dispatcher may start a pass (R172). -/
def State.passReady (s : State) : Bool :=
  s.isIdle .dispatcher && s.canStep .dispatcher && s.ds == .idle && s.sigPending

/-- The dispatcher is between two control states and at the control state `d`. -/
def State.dispatcherAt (s : State) (d : DState) : Bool := s.isIdle .dispatcher && s.ds == d

/-- The dispatcher runs for the quantum granted, or until `p` fails. -/
def State.runDispatcher (p : State → Bool) (s : State) : State := State.runWhile p s.quantum .dispatcher s

/-- The pass has not ended (R258). -/
def State.inPass (s : State) : Bool := s.ds != .idle || !s.disp.code.isEmpty

/-- The dispatcher is in the receive service of channel `c` (R190). -/
def State.inRx (c : Nat) (s : State) : Bool :=
  match s.ds with
  | .rx c' _ _ => c' == c
  | _ => false

/-- The dispatcher is in the modem-status service of channel `c` (R210). -/
def State.inMsi (c : Nat) (s : State) : Bool := s.ds == .msi c

/-- The dispatcher is in the transmit service of channel `c`, before its end (R200, R209). -/
def State.inTx (c : Nat) (s : State) : Bool :=
  match s.ds with
  | .tx c' st => c' == c && st != .done
  | _ => false

/-- The dispatcher is in TX_SETTLE of channel `c`, entered from its transmit service (R205, R211). -/
def State.inSettle (c : Nat) (s : State) : Bool := s.ds == .tx c .settle

/-- The channel, when the dispatcher's next statement is the dispatch on the identification byte it has read (R174). -/
def State.iirChannel (s : State) : Option (Nat × List Stmt) :=
  match s.disp.code with
  | .iirDispatch c :: rest => some (c, rest)
  | _ => none

/-- The dispatcher takes action `a` on the byte `v` (R174), where `v` is the byte it has read and `a` what it decodes to (R112);
where its next statement is not that dispatch it has no such step (log 4). -/
def State.takeIir (s : State) (v : Byte) (a : IirAction) : State :=
  match s.iirChannel with
  | some (c, rest) =>
    if s.canStep .dispatcher && s.readByte .dispatcher == v && decodeIir s.params.iir v == a then
      s.dispatchOn .dispatcher c v a rest
    else s
  | none => s

/-- Agent `g` has something to do now. -/
def State.agentBusy (g : Agent) (s : State) : Bool :=
  !(s.agent g).code.isEmpty || (g == .dispatcher && s.ds != .idle)

/-- An agent that may start a request starts its next one; the dispatcher, having none, starts a pass if a signal is pending
(R172, R228). -/
def State.begin (s : State) (g : Agent) : State :=
  if s.accepts g then
    if (s.agent g).pending.isEmpty then (if g = .dispatcher ∧ s.passReady then s.passStart else s) else s.startNext g
  else s

/-- The agent that has the turn runs for the quantum granted (R10, R256). -/
def State.runTurn (s : State) : State :=
  if 0 < s.quantum then State.runWhile (State.agentBusy s.turn) s.quantum s.turn (s.begin s.turn) else s

/-- An idle task agent drops its pending request number `k`, which is not the last (R228), once ATTACH has ended (R273). -/
def State.dropPending (s : State) (g : Agent) (k : Nat) : State :=
  if s.isIdle g && s.canStep g && g.isDeferred && decide (k + 1 < (s.agent g).pending.length) then
    s.setAgent g { s.agent g with pending := (s.agent g).pending.eraseIdx k }
  else s

/-! ## The collaborator and the inputs -/

/-- The collaborator appends to the outgoing queue (R44). -/
def State.queueTx (s : State) (c : Nat) (bytes : List Byte) : State :=
  s.setChan c { s.chan c with txQueue := (s.chan c).txQueue ++ bytes }

/-- The collaborator sets the control byte (R45). -/
def State.setXChar (s : State) (c : Nat) (b : Byte) : State := s.setChan c { s.chan c with xChar := some b }

/-- The collaborator sets or clears the stopped flag (R45). -/
def State.setTxStopped (s : State) (c : Nat) (v : Bool) : State := s.setChan c { s.chan c with txStopped := v }

/-- The next input: the one already chosen, or a free value (R10). -/
def State.nextInput (s : State) : Input :=
  match s.inbox with
  | x :: _ => x
  | [] => Config.freeInput s.out s.inputs

/-- The input is taken; its agent has the turn, for its quantum. -/
def State.takeInput (s : State) : State :=
  { s with inbox := s.inbox.tail, inputs := s.inputs + 1, turn := s.nextInput.turn, quantum := s.nextInput.quantum }

/-- The calling agent breaks an operand rule with a transaction record: it raises `f`, unless it may not step. Where the turn names
an agent that does not exist, `f` is recorded all the same and no agent stops: DESIGN CHOICE (log 25). -/
def State.raiseOnRecord (s : State) (f : ModelFault) : State := if s.canStep s.turn then s.raise s.turn f else s

/-- A transaction record that the decoder rejects. A record that is no command is refused (R100, R109, D4). A channel that
does not exist is BadAddress (U7, D3), a data phase out of range BadBurst (U9, U10, D8, D9), each raised by the calling agent
(log 25). -/
def State.badRecord (s : State) : DecodeError → Host.Outcome State Fault Refusal
  | .empty => .refused .noCommandByte
  | .bitZeroSet cmd => .refused (.commandBitZeroSet cmd)
  | .channelOutOfRange cmd => .next (s.raiseOnRecord (.badAddress (cmdChan cmd) (some (cmdReg cmd))))
  | .dataLength cmd n => .next (s.raiseOnRecord (.badBurst (cmdChan cmd) (cmdReg cmd) n))

/-- A state whose next step runs exactly the operation `words` stand for: ATTACH has ended, and either the transaction record
is the next input, or the dispatcher is about to dispatch on the identification byte it has read and has the turn for one
statement (log 7). -/
def State.placeWords (s : State) (words : Words) : State :=
  match words with
  | .bus bytes =>
    { s with attached := true, inbox := { kind := .bus bytes, turn := s.turn, quantum := s.quantum } :: s.inbox }
  | .iir v =>
    { s with
      attached := true
      ds := .readIir 0
      disp := { s.disp with code := [.iirDispatch 0], acc := [v], stopped := false }
      inbox := { kind := .run, turn := .dispatcher, quantum := 1 } :: s.inbox }

end Sys2Proof.Machine
end

