-- ==== Sys2Proof/Machine/Baud.lean ====
section
/-! DEFINITION. The divisor and the line setting (41_baud). -/

namespace Sys2Proof.Machine

/-- COMPUTE_DIVISOR(clockHz, target) (R150): the result or the rejection is returned; no transaction. -/
def execComputeDivisor (clockHz target : Nat) (s : State) : Host.Outcome State Fault Refusal :=
  .next (s.request s.turn (.computeDivisor clockHz target))

/-- SET_DIVISOR(c, d) (R156, R157), by the configuration agent of the channel, under the channel lock. -/
def execSetDivisor (c : Nat) (d : Half) (s : State) : Host.Outcome State Fault Refusal :=
  .next (s.requestOn c (.config c) (.setDivisor c d))

/-- LCR_ENCODE (R160): the byte is returned; no transaction. -/
def execLcrEncode (w : WordLen) (st : StopBits) (p : Parity) (brk : Bool) (s : State) : Host.Outcome State Fault Refusal :=
  .next (s.request s.turn (.lcrEncode w st p brk))

/-- SET_LINE(c, p) (R163), by the configuration agent of the channel. -/
def execSetLine (c : Nat) (p : LineParams) (s : State) : Host.Outcome State Fault Refusal :=
  .next (s.requestOn c (.config c) (.setLine c p))

end Sys2Proof.Machine
end

