-- ==== Sys2Proof/Machine/Bus.lean ====
section
/-! DEFINITION. The bus operations (40_bus_ops), requested of the agent that has the turn (the calling agent of R132). -/

namespace Sys2Proof.Machine

/-- READ(c, r) (R134): the byte read is returned. -/
def execRead (c r : Nat) (s : State) : Host.Outcome State Fault Refusal :=
  .next (s.request s.turn (.read c r))

/-- WRITE(c, r, v) (R135). -/
def execWrite (c r : Nat) (v : Byte) (s : State) : Host.Outcome State Fault Refusal :=
  .next (s.request s.turn (.write c r v))

/-- BURST_WRITE(c, start_reg, bytes) (R139). -/
def execBurstWrite (c startReg : Nat) (bytes : List Byte) (s : State) : Host.Outcome State Fault Refusal :=
  .next (s.request s.turn (.burstWrite c startReg bytes))

/-- BURST_READ(c, n) (R140): the bytes read are returned. -/
def execBurstRead (c n : Nat) (s : State) : Host.Outcome State Fault Refusal :=
  .next (s.request s.turn (.burstRead c n))

/-- UPDATE(c, r, mask, value) (R136-R138). -/
def execUpdate (c r : Nat) (mask value : Byte) (s : State) : Host.Outcome State Fault Refusal :=
  .next (s.request s.turn (.update c r mask value))

end Sys2Proof.Machine
end

