-- ==== Sys2Proof/Machine/Control.lean ====
section
/-! DEFINITION. The synchronous control requests (43_service R222-R227), by the configuration agent of the channel. -/

namespace Sys2Proof.Machine

/-- GET_STATUS(c) (R222): the cached lines are returned, or MsrUnknown raised; no transaction. -/
def execGetStatus (c : Nat) (s : State) : Host.Outcome State Fault Refusal :=
  .next (s.requestOn c (.config c) (.getStatus c))

/-- CONFIG_FLOW(c, enabled) (R224, R225). -/
def execConfigFlow (c : Nat) (enabled : Bool) (s : State) : Host.Outcome State Fault Refusal :=
  .next (s.requestOn c (.config c) (.configFlow c enabled))

/-- RS485_GET(c) (R226): the configuration is returned; no transaction. -/
def execRs485Get (c : Nat) (s : State) : Host.Outcome State Fault Refusal :=
  .next (s.requestOn c (.config c) (.rs485Get c))

/-- RS485_SET(c, cfg) (R227). -/
def execRs485Set (c : Nat) (cfg : Rs485) (s : State) : Host.Outcome State Fault Refusal :=
  .next (s.requestOn c (.config c) (.rs485Set c cfg))

end Sys2Proof.Machine
end

