-- ==== Sys2Proof/Machine/Dispatcher.lean ====
section
/-! DEFINITION. The interrupt signal and the dispatch pass (42_dispatcher). -/

namespace Sys2Proof.Machine

/-- SIGNAL (R171): signals coalesce. -/
def execSignal (s : State) : Host.Outcome State Fault Refusal :=
  .next { s with sigPending := true }

/-- DISPATCH_PASS (R172-R180): if the dispatcher may start a pass, it starts it and runs for the quantum granted, or to the end
of the pass; the turns that follow carry a longer pass on. Otherwise it has no step. -/
def execDispatchPass (s : State) : Host.Outcome State Fault Refusal :=
  .next (if s.passReady then s.passStart.runDispatcher State.inPass else s)

end Sys2Proof.Machine
end

