-- ==== Sys2Proof/Machine/Iir.lean ====
section
/-! DEFINITION. The dispatch on an identification byte (42_dispatcher R174), one meaning per row of the IIR decode (30_encoding R112). Each
acts where the dispatcher has read the byte and is about to dispatch on it; elsewhere the dispatcher has no such step. -/

namespace Sys2Proof.Machine

/-- NOINT: the channel's loop ends (R174). -/
def execIirNoint (rest : BitVec 7) (s : State) : Host.Outcome State Fault Refusal :=
  .next (s.takeIir (rest ++ 1#1) .noint)

/-- MSI: on to the modem-status service (R174). -/
def execIirMsi (hi : BitVec 4) (s : State) : Host.Outcome State Fault Refusal :=
  .next (s.takeIir (hi ++ 0x0#4) .msi)

/-- THRE: on to the transmit service, through its channel lock (R174, R176). -/
def execIirThre (hi : BitVec 4) (s : State) : Host.Outcome State Fault Refusal :=
  .next (s.takeIir (hi ++ 0x2#4) .thre)

/-- RDA: on to the receive service (R174). -/
def execIirRda (hi : BitVec 4) (s : State) : Host.Outcome State Fault Refusal :=
  .next (s.takeIir (hi ++ 0x4#4) .rda)

/-- RLS: on to the receive service (R174). -/
def execIirRls (hi : BitVec 4) (s : State) : Host.Outcome State Fault Refusal :=
  .next (s.takeIir (hi ++ 0x6#4) .rls)

/-- RTO: on to the receive service (R174). -/
def execIirRto (hi : BitVec 4) (s : State) : Host.Outcome State Fault Refusal :=
  .next (s.takeIir (hi ++ 0xC#4) .rto)

/-- Code 0x08, unknown: logged, and the channel's loop ends (R174, R184). -/
def execIirUnknown08 (hi : BitVec 4) (s : State) : Host.Outcome State Fault Refusal :=
  .next (s.takeIir (hi ++ 0x8#4) .unknown)

/-- Code 0x0A, unknown: logged, and the channel's loop ends (R174, R184). -/
def execIirUnknown0A (hi : BitVec 4) (s : State) : Host.Outcome State Fault Refusal :=
  .next (s.takeIir (hi ++ 0xA#4) .unknown)

/-- Code 0x0E, unknown: logged, and the channel's loop ends (R174, R184). -/
def execIirUnknown0E (hi : BitVec 4) (s : State) : Host.Outcome State Fault Refusal :=
  .next (s.takeIir (hi ++ 0xE#4) .unknown)

end Sys2Proof.Machine
end

