-- ==== Sys2Proof/Machine/Lifecycle.lean ====
section
/-! DEFINITION. Attach, startup and shutdown (70_reset_and_hazards sections 1 to 3). -/

namespace Sys2Proof.Machine

/-- ATTACH (R270-R274), by configuration agent 0. -/
def execAttach (s : State) : Host.Outcome State Fault Refusal :=
  .next (s.request (.config 0) .attach)

/-- STARTUP(c) (R276-R278). -/
def execStartup (c : Nat) (s : State) : Host.Outcome State Fault Refusal :=
  .next (s.requestOn c (.config c) (.startup c))

/-- SHUTDOWN(c) (R279-R281). -/
def execShutdown (c : Nat) (s : State) : Host.Outcome State Fault Refusal :=
  .next (s.requestOn c (.config c) (.shutdown c))

end Sys2Proof.Machine
end

