-- ==== Sys2Proof/Machine/Service.lean ====
section
/-! DEFINITION. The dispatcher's services (43_service sections 1 to 4). Each acts where the dispatcher is at the service's entry; elsewhere
the dispatcher has no such step (log 4). -/

namespace Sys2Proof.Machine

/-- RX_SERVICE(c, src) (R190-R199). -/
def execRxService (c : Nat) (src : RxSource) (s : State) : Host.Outcome State Fault Refusal :=
  .next (if s.dispatcherAt (.rx c src .start) then s.runDispatcher (State.inRx c) else s)

/-- TX_SERVICE(c) (R200-R209), up to its end; the dispatcher then releases the lock (R176). -/
def execTxService (c : Nat) (s : State) : Host.Outcome State Fault Refusal :=
  .next (if s.dispatcherAt (.tx c .start) then s.runDispatcher (State.inTx c) else s)

/-- MSI_SERVICE(c) (R210). -/
def execMsiService (c : Nat) (s : State) : Host.Outcome State Fault Refusal :=
  .next (if s.dispatcherAt (.msi c) then s.runDispatcher (State.inMsi c) else s)

/-- TX_SETTLE(c) (R211), by one of its two callers: the dispatcher where it has the turn and is at the settling of its transmit
service, otherwise the stop-transmit task, which takes the channel lock for it. -/
def execTxSettle (c : Nat) (s : State) : Host.Outcome State Fault Refusal :=
  .next (if s.turn = .dispatcher ∧ s.dispatcherAt (.tx c .settle) then s.runDispatcher (State.inSettle c)
    else s.requestOn c (.stopTx c) (.txSettle c))

end Sys2Proof.Machine
end

