-- ==== Sys2Proof/Machine/Tasks.lean ====
section
/-! DEFINITION. The deferred tasks (43_service R216-R221, R228), each by its own agent. -/

namespace Sys2Proof.Machine

/-- BEGIN_TX(c) (R216, R217). -/
def execBeginTx (c : Nat) (s : State) : Host.Outcome State Fault Refusal :=
  .next (s.requestOn c (.beginTx c) (.beginTx c))

/-- STOP_TX(c) (R218). -/
def execStopTx (c : Nat) (s : State) : Host.Outcome State Fault Refusal :=
  .next (s.requestOn c (.stopTx c) (.stopTx c))

/-- STOP_RX(c) (R219). -/
def execStopRx (c : Nat) (s : State) : Host.Outcome State Fault Refusal :=
  .next (s.requestOn c (.stopRx c) (.stopRx c))

/-- SET_MCTRL(c, bits) (R220). -/
def execSetMctrl (c : Nat) (bits : Byte) (s : State) : Host.Outcome State Fault Refusal :=
  .next (s.requestOn c (.setMctrl c) (.setMctrl c bits))

end Sys2Proof.Machine
end

