-- ==== Sys2Proof/Machine/Dispatch.lean ====
section
/-! DEFINITION. The dispatch of each operation to its meaning. -/

namespace Sys2Proof.Machine

def exec (i : Instr) (s : State) : Host.Outcome State Fault Refusal :=
  match i with
  | .read c r => Sys2Proof.Machine.execRead c r s
  | .write c r v => Sys2Proof.Machine.execWrite c r v s
  | .burstWrite c startReg bytes => Sys2Proof.Machine.execBurstWrite c startReg bytes s
  | .burstRead c n => Sys2Proof.Machine.execBurstRead c n s
  | .iirNoint rest => Sys2Proof.Machine.execIirNoint rest s
  | .iirMsi hi => Sys2Proof.Machine.execIirMsi hi s
  | .iirThre hi => Sys2Proof.Machine.execIirThre hi s
  | .iirRda hi => Sys2Proof.Machine.execIirRda hi s
  | .iirRls hi => Sys2Proof.Machine.execIirRls hi s
  | .iirRto hi => Sys2Proof.Machine.execIirRto hi s
  | .iirUnknown08 hi => Sys2Proof.Machine.execIirUnknown08 hi s
  | .iirUnknown0A hi => Sys2Proof.Machine.execIirUnknown0A hi s
  | .iirUnknown0E hi => Sys2Proof.Machine.execIirUnknown0E hi s
  | .update c r mask value => Sys2Proof.Machine.execUpdate c r mask value s
  | .computeDivisor clockHz target => Sys2Proof.Machine.execComputeDivisor clockHz target s
  | .setDivisor c d => Sys2Proof.Machine.execSetDivisor c d s
  | .lcrEncode w st p brk => Sys2Proof.Machine.execLcrEncode w st p brk s
  | .setLine c p => Sys2Proof.Machine.execSetLine c p s
  | .signal => Sys2Proof.Machine.execSignal s
  | .dispatchPass => Sys2Proof.Machine.execDispatchPass s
  | .rxService c src => Sys2Proof.Machine.execRxService c src s
  | .txService c => Sys2Proof.Machine.execTxService c s
  | .msiService c => Sys2Proof.Machine.execMsiService c s
  | .txSettle c => Sys2Proof.Machine.execTxSettle c s
  | .beginTx c => Sys2Proof.Machine.execBeginTx c s
  | .stopTx c => Sys2Proof.Machine.execStopTx c s
  | .stopRx c => Sys2Proof.Machine.execStopRx c s
  | .setMctrl c bits => Sys2Proof.Machine.execSetMctrl c bits s
  | .getStatus c => Sys2Proof.Machine.execGetStatus c s
  | .configFlow c enabled => Sys2Proof.Machine.execConfigFlow c enabled s
  | .rs485Get c => Sys2Proof.Machine.execRs485Get c s
  | .rs485Set c cfg => Sys2Proof.Machine.execRs485Set c cfg s
  | .attach => Sys2Proof.Machine.execAttach s
  | .startup c => Sys2Proof.Machine.execStartup c s
  | .shutdown c => Sys2Proof.Machine.execShutdown c s

end Sys2Proof.Machine
end

