-- ==== Sys2Proof/Machine/Step.lean ====
section
/-! DEFINITION. One step of the machine: the next input is taken and carried out (00_scope R10, R25). -/

namespace Sys2Proof.Machine

/-- One step. The next input is a request, a transaction record (decoded, then carried out), a turn for an agent, or an act of
the collaborator. -/
def step (s : State) : Host.Outcome State Fault Refusal :=
  if s.params.admissible then
    match s.nextInput.kind with
    | .request i => exec i s.takeInput
    | .bus bytes =>
      match decode s.params.nCh bytes with
      | .ok i => exec i s.takeInput
      | .error e => s.takeInput.badRecord e
    | .run => .next s.takeInput.runTurn
    | .dropPending k => .next (s.takeInput.dropPending s.nextInput.turn k)
    | .queueTx c bytes => .next (s.takeInput.queueTx c bytes)
    | .setXChar c b => .next (s.takeInput.setXChar c b)
    | .setTxStopped c v => .next (s.takeInput.setTxStopped c v)
  else .fault .badParameters

/-- `s` with a table row's instruction placed where `step` takes its next one (log 7). -/
def State.withFetchWord (s : State) (nbits w : Nat) : State := s.placeWords (tableWords nbits w)

end Sys2Proof.Machine
end

