-- ==== Sys2Proof/Safety.lean ====
section
/-! DEFINITION. What claims mean by a safe state: the shape of the state, the lock discipline, and the encoding of what the
block has issued. -/

namespace Sys2Proof.Machine

/-- Agent `g` exists: the dispatcher, or an agent of one of the N channels (R9). -/
def State.hasAgent (s : State) : Agent → Bool
  | .dispatcher => true
  | .beginTx c | .stopTx c | .stopRx c | .setMctrl c | .config c => decide (c < s.tasks.length)

/-- Agent `g` exists, is between two operations or control states with no request pending, and may step; the bus is free
(R91, R228, R273). -/
def State.resting (s : State) (g : Agent) : Bool :=
  s.hasAgent g && s.isIdle g && (s.agent g).pending.isEmpty && s.attached && s.busLock == .free

/-- Agent `g` is resting and, if it is the dispatcher, in no pass: a request of it starts at once (R228, log 29). -/
def State.ready (s : State) (g : Agent) : Bool := s.resting g && (g != .dispatcher || s.ds == .idle)

/-- The agent of channel `c`, if the channel exists. -/
def State.onChannel (s : State) (c : Nat) (g : Agent) : Option Agent := if c < s.params.nCh then some g else none

/-- The agent that an operation is requested of (R9, R228); none for the operations the dispatcher performs on its own control
state, for SIGNAL, and for a channel that does not exist. -/
def State.askedOf (s : State) : Instr → Option Agent
  | .read _ _ => some s.turn
  | .write _ _ _ => some s.turn
  | .burstWrite _ _ _ => some s.turn
  | .burstRead _ _ => some s.turn
  | .iirNoint _ => none
  | .iirMsi _ => none
  | .iirThre _ => none
  | .iirRda _ => none
  | .iirRls _ => none
  | .iirRto _ => none
  | .iirUnknown08 _ => none
  | .iirUnknown0A _ => none
  | .iirUnknown0E _ => none
  | .update _ _ _ _ => some s.turn
  | .computeDivisor _ _ => some s.turn
  | .setDivisor c _ => s.onChannel c (.config c)
  | .lcrEncode _ _ _ _ => some s.turn
  | .setLine c _ => s.onChannel c (.config c)
  | .signal => none
  | .dispatchPass => none
  | .rxService _ _ => none
  | .txService _ => none
  | .msiService _ => none
  | .txSettle c => if s.turn = .dispatcher ∧ s.ds = .tx c .settle then none else s.onChannel c (.stopTx c)
  | .beginTx c => s.onChannel c (.beginTx c)
  | .stopTx c => s.onChannel c (.stopTx c)
  | .stopRx c => s.onChannel c (.stopRx c)
  | .setMctrl c _ => s.onChannel c (.setMctrl c)
  | .getStatus c => s.onChannel c (.config c)
  | .configFlow c _ => s.onChannel c (.config c)
  | .rs485Get c => s.onChannel c (.config c)
  | .rs485Set c _ => s.onChannel c (.config c)
  | .attach => some (.config 0)
  | .startup c => s.onChannel c (.config c)
  | .shutdown c => s.onChannel c (.config c)

/-! ## Whole effects, for claims to name -/

/-- What UPDATE leaves, apart from the agent's own control state (R137): its read, then its write of the value computed from
the byte read. -/
def State.updated (s : State) (g : Agent) (c r : Nat) (mask value : Byte) : State :=
  (s.received g .read c r 1).sent g .write c r [((s.drawBytes 1).headD 0#8 &&& ~~~mask) ||| (value &&& mask)]

/-- The THRE interrupt disabled and the session over (R211). -/
def State.txDisabled (s : State) (g : Agent) (c : Nat) : State :=
  (s.updated g c 1 0x02#8 0x00#8).setChan c { s.chan c with txActive := false }

/-- What TX_SETTLE leaves (R211), with the bytes its last read returned. -/
def State.settled (s : State) (g : Agent) (c : Nat) : State × List Byte :=
  if (s.chan c).rs485.enabled then
    let s1 := s.received g .read c 5 1
    if ((s.drawBytes 1).headD 0#8).has 6 then
      let s2 := if (s.chan c).txQueue = [] then s1.show [.sleep g (s.chan c).rs485.postDelay] else s1
      (s2.txDisabled g c, s2.drawBytes 1)
    else (s1, s.drawBytes 1)
  else (s.txDisabled g c, s.drawBytes 1)

/-- The sequence of SET_DIVISOR on the bus (R156): LCR read, latch on, high byte, low byte, LCR restored. -/
def State.divisorSet (s : State) (g : Agent) (c : Nat) (d : Half) : State :=
  let lcr := (s.drawBytes 1).headD 0#8
  ((((s.received g .read c 3 1).sent g .write c 3 [lcr ||| 0x80#8]).sent g .write c 1 [d.extractLsb' 8 8]).sent
    g .write c 0 [d.extractLsb' 0 8]).sent g .write c 3 [lcr]

/-- ATTACH's three writes on channel `c` (R274). -/
def State.chanAttached (s : State) (g : Agent) (c : Nat) : State :=
  ((s.sent g .write c 1 [0x00#8]).sent g .write c 4 [0x00#8]).sent g .write c 2 [s.params.fcrReset]

/-- One answer of one byte. -/
def answer (x : Bool × Byte) : Draw := { ok := x.1, bytes := [x.2] }

/-- What the dispatcher shows for one READ that is answered `x`. -/
def readShown (c r : Nat) (x : Bool × Byte) : List Obs := txnObs .dispatcher .read c r (readCmd c r) [x.2] x.1

/-- A drain's bytes, each with the line status read before it, classified in order (R194, R196). -/
def Chan.drained (x : Chan) (l : List ((Bool × Byte) × (Bool × Byte))) : Chan :=
  l.foldl (fun y e => y.classify e.2.2 e.1.2) x

/-- The notification of a receive batch, none for an empty one (R197). -/
def batchShown (c : Nat) (b : List (Byte × RxFlag)) : List Obs := if b = [] then [] else [.emit (.rxBatch c b)]

/-! ## Invariants -/

/-- A transaction as the block may issue it (R101, R106, R110): bit 0 of the command clear, CH below N, at least one data byte,
and at most 16 in a write. -/
def eventOk (n : Nat) (e : Event) : Bool :=
  !cmdZ e.cmd && decide (cmdChan e.cmd < n) && decide (1 ≤ e.data.length)
    && (!cmdIsWrite e.cmd || decide (e.data.length ≤ Config.fifoDepth))

/-- Every transaction in a list of statements is in range, or stands behind the check that refuses it. -/
def Guarded (n : Nat) : List Stmt → Prop
  | [] => True
  | .checkAddr c r :: rest => c < n ∧ r < 8 → Guarded n rest
  | .checkBurstWrite c startReg k :: rest => c < n ∧ startReg = 0 ∧ k ≠ 0 ∧ k ≤ Config.fifoDepth → Guarded n rest
  | .checkBurstRead c k :: rest => c < n ∧ k ≠ 0 → Guarded n rest
  | .txnRead _ c r k :: rest => c < n ∧ r < 8 ∧ 1 ≤ k ∧ Guarded n rest
  | .txnWrite _ c r data :: rest => c < n ∧ r < 8 ∧ 1 ≤ data.length ∧ data.length ≤ Config.fifoDepth ∧ Guarded n rest
  | .txnUpdate c r _ _ :: rest => c < n ∧ r < 8 ∧ Guarded n rest
  | .txnMcr c :: rest => c < n ∧ Guarded n rest
  | _ :: rest => Guarded n rest

/-- Every transaction shown is one the block may issue, and every agent's statements keep it so. -/
def State.Issued (s : State) : Prop :=
  (∀ e, Obs.txn e ∈ s.out → eventOk s.params.nCh e = true) ∧ ∀ g, Guarded s.params.nCh (s.agent g).code

/-- The shape of the state: exactly N channels and N sets of agents, each channel with its own index (R30, R36, R37), and a
scratch buffer of 16 bytes (R32). -/
def State.Shape (s : State) : Prop :=
  s.ch.length = s.params.nCh ∧ s.tasks.length = s.params.nCh ∧ (∀ c, c < s.params.nCh → (s.chan c).index = c)
    ∧ s.scratch.length = Config.fifoDepth

end Sys2Proof.Machine
end

