-- ==== Sys2Proof/Certificates/Slice0/Obligations.lean ====
section
/-! DEFINITION. The statements for the provers. Each docstring names the rules it formalises. In a statement about what an
operation leaves, the next state is written out whole as an update of the state before, so it is also the frame: whatever the
update does not name is unchanged. In every statement `s.turn` is the calling agent and a premise `k ≤ s.quantum` says that it
is granted enough statements to come to its end: the scheduler's choices are data of the model's own (log 1), and what counts as
one statement is log 22, log 31 and log 32. `drawBytes`, `drawOk` and `s.oracle` are the UART core's answers, which nothing
constrains (log 2). `sent` and `received` are one transaction shown, as TransactionIsShown writes it out. -/

open Sys2Proof Sys2Proof.Machine

/-! ## Encoding -/

/-- R102-R105: the command bytes, and their values for the channels a command byte can hold; the burst commands are those of
offset 0. -/
def Obligations.CommandBytesMatchFormulas : Prop :=
  ∀ c r : Nat, c < 8 → r < 8 →
    readCmd c r = 0xFD#8 &&& BitVec.ofNat 8 ((r + c * 8) <<< 2) ∧ (readCmd c r).toNat = (r + c * 8) <<< 2 ∧
    writeCmd c r = 0x02#8 ||| BitVec.ofNat 8 ((r + c * 8) <<< 2) ∧ (writeCmd c r).toNat = (r + c * 8) <<< 2 + 2 ∧
    burstWriteCmd c = writeCmd c 0 ∧ burstWriteCmd c = 0x02#8 ||| BitVec.ofNat 8 (c <<< 5) ∧
    burstReadCmd c = readCmd c 0 ∧ burstReadCmd c = BitVec.ofNat 8 (c <<< 5)

/-- R108, R112: words written out from the tables, one for each row of the IIR decode and several commands. -/
def Obligations.TableWordsDecode : Prop :=
  decode 2 [0x34#8, 0x60#8] = .ok (.read 1 5) ∧ decode 2 [0x0E#8, 0x83#8] = .ok (.write 0 3 0x83#8) ∧
  decode 2 [0x3E#8, 0x01#8] = .ok (.write 1 7 0x01#8) ∧ decode 2 [0x22#8, 0x41#8, 0x42#8] = .ok (.burstWrite 1 0 [0x41#8, 0x42#8]) ∧
  decode 2 [0x00#8, 0x01#8, 0x02#8, 0x03#8] = .ok (.burstRead 0 3) ∧
  decodeIirRow 0xC1#8 = .iirNoint 0x60#7 ∧ decodeIirRow 0xC0#8 = .iirMsi 0xC#4 ∧ decodeIirRow 0x02#8 = .iirThre 0x0#4 ∧
  decodeIirRow 0xC4#8 = .iirRda 0xC#4 ∧ decodeIirRow 0x06#8 = .iirRls 0x0#4 ∧ decodeIirRow 0xCC#8 = .iirRto 0xC#4 ∧
  decodeIirRow 0xC8#8 = .iirUnknown08 0xC#4 ∧ decodeIirRow 0x0A#8 = .iirUnknown0A 0x0#4 ∧
  decodeIirRow 0x0E#8 = .iirUnknown0E 0x0#4

/-- Tier 3, decode and encode agree (R101, R106, R107, R112): every well-formed operation with a binary encoding is read back
from its words, a burst of one byte under its other name. -/
def Obligations.DecodeOfEncodeIsSame : Prop :=
  ∀ (n : Nat) (i : Instr) (w : Words), n ≤ 8 → i.wf n = true → encode i = some w →
    decodeWords n w = .ok i.sameTransaction

/-- The other direction: what the decoder reads from a record is well formed, and its encoding has the record's command byte
and data length, and for a write the record's data (R100, R101, R106). -/
def Obligations.EncodeOfDecodeIsSame : Prop :=
  ∀ (n : Nat) (cmd : Byte) (data : List Byte) (i : Instr), decode n (cmd :: data) = .ok i →
    i.wf n = true ∧ ∃ out : List Byte, encode i = some (.bus (cmd :: out)) ∧ out.length = data.length ∧
      (cmd.getLsbD 1 = true → out = data)

/-- R100, R109, R11, R13, R113: what stops the machine, none of it an operation: parameters that no controller has, a record
without a command byte, a command byte with bit 0 = 1. That such parameters fault the step, where R113 says refused, is DEDUCED
(log 24). R106, R110 (U7, U9, U10): a record for a channel that does not exist raises BadAddress in the calling agent, and one
with a data phase out of range BadBurst; the agent stops, the bus lock is free again if it held it (DEDUCED from R130, log 15),
and the machine goes on. When the fault is raised, that it is recorded where the turn names an agent that does not exist, and
BadBurst for a read of several bytes of another offset, are the model's choice (log 25). -/
def Obligations.BadRecordsStopOrFault : Prop :=
  (∀ s : State, s.params.admissible = false → step s = .fault .badParameters) ∧
  ∀ (s : State) (g : Agent) (q : Nat) (rest : List Input), s.params.admissible = true →
    (s.inbox = { kind := .bus [], turn := g, quantum := q } :: rest → step s = .refused .noCommandByte) ∧
    ∀ (cmd : Byte) (data : List Byte), s.inbox = { kind := .bus (cmd :: data), turn := g, quantum := q } :: rest →
      let c := cmd.toNat / 32
      let r := cmd.toNat / 4 % 8
      let write := cmd.getLsbD 1
      let stopsWith := fun f : ModelFault => step s = .next (State.setAgent
        { s with
          inbox := rest, inputs := s.inputs + 1, turn := g, quantum := q
          busLock := if s.busLock = .held g then .free else s.busLock
          faults := if f ∈ s.faults then s.faults else s.faults ++ [f] } g { s.agent g with stopped := true })
      (cmd.getLsbD 0 = true → step s = .refused (.commandBitZeroSet cmd)) ∧
      (cmd.getLsbD 0 = false → s.attached = true → (s.agent g).stopped = false →
        (s.params.nCh ≤ c → stopsWith (.badAddress c (some r))) ∧
        (c < s.params.nCh → ¬(data.length = 1 ∨ r = 0 ∧ 1 ≤ data.length ∧ (write = true → data.length ≤ 16)) →
          stopsWith (.badBurst c r data.length)))

/-- R112: the decode of the identification byte under the parameters' default values, by its low four bits (the bit and code
values are PRESUMED, log 11). -/
def Obligations.IirDecodeTable : Prop :=
  ∀ v : Byte,
    decodeIir Config.iir v =
      if v.toNat % 2 = 1 then .noint
      else if v.toNat % 16 = 0x00 then .msi
      else if v.toNat % 16 = 0x02 then .thre
      else if v.toNat % 16 = 0x04 then .rda
      else if v.toNat % 16 = 0x06 then .rls
      else if v.toNat % 16 = 0x0C then .rto
      else .unknown

/-! ## One step -/

/-- A step with a transaction record next runs the decoded operation; the step itself only takes the input (R100, R115);
that records come as inputs is the model's choice (log 1, log 18). -/
def Obligations.StepRunsDecodedTransaction : Prop :=
  ∀ (s : State) (bytes : List Byte) (g : Agent) (q : Nat) (rest : List Input) (i : Instr), s.params.admissible = true →
    s.inbox = { kind := .bus bytes, turn := g, quantum := q } :: rest → decode s.params.nCh bytes = .ok i →
    step s = exec i { s with inbox := rest, inputs := s.inputs + 1, turn := g, quantum := q }

/-- A step with a request next runs the operation requested (R114, R116); requests as inputs are the model's choice (log 1). -/
def Obligations.StepRunsRequest : Prop :=
  ∀ (s : State) (g : Agent) (q : Nat) (rest : List Input) (i : Instr), s.params.admissible = true →
    s.inbox = { kind := .request i, turn := g, quantum := q } :: rest →
    step s = exec i { s with inbox := rest, inputs := s.inputs + 1, turn := g, quantum := q }

/-- R174: a dispatcher that has read the identification byte `v` and has the turn for one statement does what the row of `v`
does (IIR parameters at their default values, PRESUMED, log 11; inputs as data, log 1). -/
def Obligations.StepRunsIdentification : Prop :=
  ∀ (s : State) (c : Nat) (v : Byte) (more : List Stmt) (rest : List Input), s.params.admissible = true →
    s.params.iir = Config.iir → s.attached = true → s.disp.stopped = false → s.disp.code = .iirDispatch c :: more →
    s.disp.acc = [v] → s.inbox = { kind := .run, turn := .dispatcher, quantum := 1 } :: rest →
    step s = exec (decodeIirRow v) { s with inbox := rest, inputs := s.inputs + 1, turn := .dispatcher, quantum := 1 }

/-- R44, R45: the collaborator appends to the queue and sets the control byte and the stopped flag, and changes nothing else; its
acts as inputs are the model's choice (log 1). -/
def Obligations.CollaboratorActs : Prop :=
  ∀ (s : State) (k : InputKind) (g : Agent) (q : Nat) (rest : List Input), s.params.admissible = true →
    s.inbox = { kind := k, turn := g, quantum := q } :: rest →
    let s1 : State := { s with inbox := rest, inputs := s.inputs + 1, turn := g, quantum := q }
    (∀ c bytes, k = .queueTx c bytes →
      step s = .next (s1.setChan c { s.chan c with txQueue := (s.chan c).txQueue ++ bytes })) ∧
    (∀ c b, k = .setXChar c b → step s = .next (s1.setChan c { s.chan c with xChar := some b })) ∧
    (∀ c v, k = .setTxStopped c v → step s = .next (s1.setChan c { s.chan c with txStopped := v }))

/-! ## Bus operations -/

/-- R134: READ sends the read command, takes one byte in and returns it; the bus lock is free again. -/
def Obligations.ReadReturnsByte : Prop :=
  ∀ (s : State) (c r : Nat), s.ready s.turn = true → c < s.params.nCh → r < 8 →
    s.hazard s.turn c (readCmd c r) = none → 5 ≤ s.quantum →
    exec (.read c r) s = .next (((s.received s.turn .read c r 1).show
      [.result s.turn (.byte ((s.drawBytes 1).headD 0#8))]).setAgent s.turn { s.agent s.turn with acc := s.drawBytes 1 })

/-- R135: WRITE sends the write command and the value; the bus lock is free again. -/
def Obligations.WriteSendsValue : Prop :=
  ∀ (s : State) (c r : Nat) (v : Byte), s.ready s.turn = true → c < s.params.nCh → r < 8 →
    s.hazard s.turn c (writeCmd c r) = none → 4 ≤ s.quantum →
    exec (.write c r v) s = .next (s.sent s.turn .write c r [v])

/-- R136, R137: UPDATE reads the register, then writes (old & ~mask) | (value & mask), always. -/
def Obligations.UpdateReadsThenWrites : Prop :=
  ∀ (s : State) (c r : Nat) (mask value : Byte), s.ready s.turn = true → c < s.params.nCh → r < 8 →
    s.hazard s.turn c (readCmd c r) = none → s.hazard s.turn c (writeCmd c r) = none → 5 ≤ s.quantum →
    exec (.update c r mask value) s = .next (((s.received s.turn .read c r 1).sent s.turn .write c r
      [((s.drawBytes 1).headD 0#8 &&& ~~~mask) ||| (value &&& mask)]).setAgent s.turn
        { s.agent s.turn with acc := s.drawBytes 1 })

/-- R139: a burst of 1 to 16 bytes to offset 0 is one transaction of the write command of offset 0. -/
def Obligations.BurstWriteSendsBytes : Prop :=
  ∀ (s : State) (c : Nat) (bytes : List Byte), s.ready s.turn = true → c < s.params.nCh → 1 ≤ bytes.length →
    bytes.length ≤ 16 → s.hazard s.turn c (burstWriteCmd c) = none → 4 ≤ s.quantum →
    exec (.burstWrite c 0 bytes) s = .next (s.sent s.turn .burstWrite c 0 bytes)

/-- R140: a burst read of any length from 1 is one transaction of the read command of offset 0, and its bytes are returned. -/
def Obligations.BurstReadReturnsBytes : Prop :=
  ∀ (s : State) (c n : Nat), s.ready s.turn = true → c < s.params.nCh → 1 ≤ n →
    s.hazard s.turn c (burstReadCmd c) = none → 5 ≤ s.quantum →
    exec (.burstRead c n) s = .next (((s.received s.turn .burstRead c 0 n).show
      [.result s.turn (.bytes (s.drawBytes n))]).setAgent s.turn { s.agent s.turn with acc := s.drawBytes n })

/-- R132, R133: what a transaction shows, written out, when the core answers `ok` and `b`: its record with the agent, the
command, the data and `ok`, then BusError if it failed. A failed read still returns the byte, a failed write is recorded, and
neither is a fault nor tried again. -/
def Obligations.TransactionIsShown : Prop :=
  ∀ (s : State) (c r : Nat) (v b : Byte) (ok : Bool) (rest : List Draw), s.ready s.turn = true → c < s.params.nCh → r < 8 →
    s.oracle = { ok := ok, bytes := [b] } :: rest → 5 ≤ s.quantum →
    (s.hazard s.turn c (readCmd c r) = none → exec (.read c r) s = .next (State.setAgent
      { s with
        out := s.out ++ [.txn { agent := s.turn, cmd := readCmd c r, data := [b], ok := ok }] ++
          (if ok then [] else [.log (.busError .read c r)]) ++ [.result s.turn (.byte b)]
        oracle := rest
        draws := s.draws + 1 } s.turn { s.agent s.turn with acc := [b] })) ∧
    (s.hazard s.turn c (writeCmd c r) = none → exec (.write c r v) s = .next
      { s with
        out := s.out ++ [.txn { agent := s.turn, cmd := writeCmd c r, data := [v], ok := ok }] ++
          (if ok then [] else [.log (.busError .write c r)])
        oracle := rest
        draws := s.draws + 1 })

/-- R131, R139, R140, R246, R247: a register operation on a channel or offset that does not exist, and a burst on a channel that
does not exist, raise BadAddress: the fault is recorded, the calling agent stops, and nothing else changes: no transaction, no
lock. That a burst write carries its start register and a burst read 0 is DEDUCED (log 21). A request of an operation of a
channel that does not exist records BadAddress with no offset, once ATTACH has ended, and changes nothing else (R131, R163,
R276, R280; DEDUCED, log 5). -/
def Obligations.BadAddressStopsCaller : Prop :=
  (∀ (s : State) (c r : Nat) (i : Instr), s.ready s.turn = true → 1 ≤ s.quantum →
    (¬(c < s.params.nCh ∧ r < 8) ∧ (i = .read c r ∨ (∃ v, i = .write c r v) ∨ ∃ mask value, i = .update c r mask value)) ∨
      (s.params.nCh ≤ c ∧ ((∃ bytes, i = .burstWrite c r bytes) ∨ (r = 0 ∧ ∃ n, i = .burstRead c n))) →
    ∃ code, exec i s = .next (State.setAgent
      { s with
        faults := if .badAddress c (some r) ∈ s.faults then s.faults else s.faults ++ [.badAddress c (some r)] } s.turn
        { s.agent s.turn with code := code, stopped := true })) ∧
  ∀ (s : State) (c : Nat) (i : Instr), s.params.nCh ≤ c →
    ((∃ d, i = .setDivisor c d) ∨ (∃ p, i = .setLine c p) ∨ (i = .txSettle c ∧ s.ds ≠ .tx c .settle) ∨ i = .beginTx c ∨
      i = .stopTx c ∨ i = .stopRx c ∨ (∃ bits, i = .setMctrl c bits) ∨ i = .getStatus c ∨ (∃ on, i = .configFlow c on) ∨
      i = .rs485Get c ∨ (∃ cfg, i = .rs485Set c cfg) ∨ i = .startup c ∨ i = .shutdown c) →
    (s.attached = true → exec i s = .next
      { s with faults := if .badAddress c none ∈ s.faults then s.faults else s.faults ++ [.badAddress c none] }) ∧
    (s.attached = false → exec i s = .next s)

/-- R139, R140, R246, R248: a burst write of another offset, of no bytes or of more than 16, and a burst read of no bytes, raise
BadBurst: the fault is recorded, the calling agent stops, and nothing else changes: no transaction, no lock. -/
def Obligations.BadBurstStopsCaller : Prop :=
  ∀ (s : State) (c k : Nat) (bytes : List Byte), s.ready s.turn = true → c < s.params.nCh → 1 ≤ s.quantum →
    let stopsWith := fun (i : Instr) (f : ModelFault) => ∃ code, exec i s = .next (State.setAgent
      { s with faults := if f ∈ s.faults then s.faults else s.faults ++ [f] } s.turn
        { s.agent s.turn with code := code, stopped := true })
    (k ≠ 0 ∨ bytes.length = 0 ∨ 16 < bytes.length → stopsWith (.burstWrite c k bytes) (.badBurst c k bytes.length)) ∧
    stopsWith (.burstRead c 0) (.badBurst c 0 0)

/-- R285: at every transaction of another agent inside the divisor window the step raises DlabHazard and the transaction is not
issued: the fault is recorded, the agent stops, the bus is free again (DEDUCED, log 15), and nothing else changes. So it is for
each bus operation; UPDATE meets it at its read. -/
def Obligations.DlabHazardStopsIntruder : Prop :=
  (∀ (s : State) (g g0 : Agent) (c c0 : Nat) (cmd : Byte) (m : Stmt) (rest : List Stmt), s.canStep g = true →
    s.busLock = .held g → s.nextCode g = m :: rest →
    ((∃ k r n, m = .txnRead k c r n ∧ cmd = readCmd c r) ∨ (∃ k r data, m = .txnWrite k c r data ∧ cmd = writeCmd c r) ∨
      (∃ r mask value, m = .txnUpdate c r mask value ∧ cmd = writeCmd c r) ∨ (m = .txnMcr c ∧ cmd = writeCmd c 4)) →
    s.dlabWindow = some (g0, c0) → g ≠ g0 → (s.params.dlabScope = .anyChannel ∨ c = c0) →
    s.agentStep g = State.setAgent
      { s with
        busLock := .free
        faults := if .dlabHazard g cmd ∈ s.faults then s.faults else s.faults ++ [.dlabHazard g cmd] } g
        { s.agent g with stopped := true }) ∧
  ∀ (s : State) (c c0 : Nat) (g0 : Agent) (i : Instr) (cmd : Byte), s.ready s.turn = true → c < s.params.nCh →
    3 ≤ s.quantum → s.dlabWindow = some (g0, c0) → s.turn ≠ g0 → (s.params.dlabScope = .anyChannel ∨ c = c0) →
    ((∃ r, r < 8 ∧ i = .read c r ∧ cmd = readCmd c r) ∨ (∃ r v, r < 8 ∧ i = .write c r v ∧ cmd = writeCmd c r) ∨
      (∃ r mask value, r < 8 ∧ i = .update c r mask value ∧ cmd = readCmd c r) ∨
      (∃ bytes, 1 ≤ bytes.length ∧ bytes.length ≤ 16 ∧ i = .burstWrite c 0 bytes ∧ cmd = burstWriteCmd c) ∨
      (∃ n, 1 ≤ n ∧ i = .burstRead c n ∧ cmd = burstReadCmd c)) →
    ∃ code, exec i s = .next (State.setAgent
      { s with faults := if .dlabHazard s.turn cmd ∈ s.faults then s.faults else s.faults ++ [.dlabHazard s.turn cmd] } s.turn
        { s.agent s.turn with code := code, stopped := true })

/-- R286: at every write transaction on a shut channel by the dispatcher or a deferred task the step raises PostShutdownWrite and
the write is not issued: the fault is recorded, the agent stops, the bus is free again (DEDUCED, log 15), and nothing else
changes. So it is for WRITE and BURST_WRITE, and for UPDATE at its write, after its read has been issued. A read on a shut channel
is issued, and so is a write by a configuration agent. -/
def Obligations.PostShutdownWriteStopsTask : Prop :=
  (∀ (s : State) (g : Agent) (c : Nat) (cmd : Byte) (m : Stmt) (rest : List Stmt), s.canStep g = true →
    s.busLock = .held g → s.nextCode g = m :: rest →
    ((∃ k r data, m = .txnWrite k c r data ∧ cmd = writeCmd c r) ∨
      (∃ r mask value, m = .txnUpdate c r mask value ∧ cmd = writeCmd c r) ∨ (m = .txnMcr c ∧ cmd = writeCmd c 4)) →
    s.dlabWindow = none → (s.chan c).life = .shut → (g = .dispatcher ∨ g.isDeferred = true) →
    s.agentStep g = State.setAgent
      { s with
        busLock := .free
        faults := if .postShutdownWrite c cmd ∈ s.faults then s.faults else s.faults ++ [.postShutdownWrite c cmd] } g
        { s.agent g with stopped := true }) ∧
  ∀ (s : State) (c r : Nat) (v : Byte), s.ready s.turn = true → c < s.params.nCh → r < 8 → 5 ≤ s.quantum →
    s.dlabWindow = none → (s.chan c).life = .shut →
    let stopsWith := fun (i : Instr) (t : State) (cmd : Byte) (acc : List Byte) => ∃ code, exec i s = .next (State.setAgent
      { t with
        faults := if .postShutdownWrite c cmd ∈ s.faults then s.faults else s.faults ++ [.postShutdownWrite c cmd] } s.turn
        { s.agent s.turn with code := code, acc := acc, stopped := true })
    (s.turn = .dispatcher ∨ s.turn.isDeferred = true →
      stopsWith (.write c r v) s (writeCmd c r) (s.agent s.turn).acc ∧
      (∀ bytes, 1 ≤ bytes.length → bytes.length ≤ 16 →
        stopsWith (.burstWrite c 0 bytes) s (burstWriteCmd c) (s.agent s.turn).acc) ∧
      ∀ mask, stopsWith (.update c r mask v) (s.received s.turn .read c r 1) (writeCmd c r) (s.drawBytes 1)) ∧
    (∀ d, s.turn = .config d → exec (.write c r v) s = .next (s.sent s.turn .write c r [v])) ∧
    exec (.read c r) s = .next (((s.received s.turn .read c r 1).show
      [.result s.turn (.byte ((s.drawBytes 1).headD 0#8))]).setAgent s.turn { s.agent s.turn with acc := s.drawBytes 1 })

/-- R87, R132, R142: at most one agent holds the bus lock; a step that shows a transaction is a step of the agent that holds it,
and shows exactly one, and the agent holds the lock still (so none comes between the two transactions of an UPDATE, R138). R91,
R130: a step changes the bus lock only from free to held by the agent that steps, or from held by that agent to free, or frees it
at ATTACH's initialisation; `acquire` takes a free lock, and is no step while any agent holds it; `release` frees it for the
holder, and is no step for another. -/
def Obligations.OnlyBusHolderTransacts : Prop :=
  (∀ (s : State) (g : Agent), (∀ g1 g2, s.busLock = .held g1 → s.busLock = .held g2 → g1 = g2) ∧
    ((∃ e, (s.agentStep g).out.filter (fun o => match o with | .txn _ => true | _ => false) =
        s.out.filter (fun o => match o with | .txn _ => true | _ => false) ++ [.txn e] ∧ s.busLock = .held g ∧ e.agent = g ∧
          (s.agentStep g).busLock = .held g) ∨
      (s.agentStep g).out.filter (fun o => match o with | .txn _ => true | _ => false) =
        s.out.filter (fun o => match o with | .txn _ => true | _ => false))) ∧
  (∀ (s : State) (g : Agent), (s.agentStep g).busLock ≠ s.busLock →
    (s.busLock = .free ∧ (s.agentStep g).busLock = .held g) ∨ (s.busLock = .held g ∧ (s.agentStep g).busLock = .free) ∨
      ((s.agentStep g).busLock = .free ∧ ∃ rest, s.nextCode g = .initState :: rest)) ∧
  (∀ (s : State) (g : Agent) (rest : List Stmt), s.nextCode g = .acquireBus :: rest →
    (s.canStep g = true → s.busLock = .free →
      s.agentStep g = State.setAgent { s with busLock := .held g } g { s.agent g with code := rest }) ∧
    ∀ h, s.busLock = .held h → s.agentStep g = s) ∧
  ∀ (s : State) (g : Agent) (rest : List Stmt), s.nextCode g = .releaseBus :: rest →
    (s.canStep g = true → s.busLock = .held g →
      s.agentStep g = State.setAgent { s with busLock := .free } g { s.agent g with code := rest }) ∧
    (s.busLock ≠ .held g → s.agentStep g = s)

/-- R91: the channel lock. A step changes it only from free to held by the agent that steps, or from held by that agent to free
(or at ATTACH's initialisation); an agent that acquires it while another holds it has no step, and only the holder releases it.
R176, R209: the dispatcher takes it before the transmit service, waiting for it, and releases it after. R92, R163, R216, R218,
R224, R227, R276, R280: BEGIN_TX, STOP_TX, SET_DIVISOR, SET_LINE, CONFIG_FLOW, RS485_SET, STARTUP and SHUTDOWN run under it. While
it is held, each comes to its `acquire` and waits there, and nothing is written under the lock; what SHUTDOWN does before it is
written out, SET_LINE is accepted here, RS485_SET may be rejected. Where it is free, the agent has it by its second statement (for
SHUTDOWN of channel 0, its sixth) and keeps it until it releases it and has no statement left but its result; an agent that a
fault stops keeps it (DEDUCED, log 15). That TX_SETTLE requested alone is run so by the stop-transmit task, and SET_DIVISOR alone
by the configuration agent, is DEDUCED (log 17), as is what SHUTDOWN takes for an idle task (log 12). -/
def Obligations.ChannelLockIsExclusive : Prop :=
  (∀ (s : State) (g : Agent) (c : Nat), ((s.agentStep g).chan c).chLock ≠ (s.chan c).chLock →
    ((s.chan c).chLock = .free ∧ ((s.agentStep g).chan c).chLock = .held g) ∨
      ((s.chan c).chLock = .held g ∧ ((s.agentStep g).chan c).chLock = .free) ∨ ∃ rest, s.nextCode g = .initState :: rest) ∧
  (∀ (s : State) (g h : Agent) (c : Nat) (rest : List Stmt), s.nextCode g = .acquireCh c :: rest →
    (s.chan c).chLock = .held h → s.agentStep g = s) ∧
  (∀ (s : State) (g : Agent) (c : Nat) (rest : List Stmt), s.nextCode g = .releaseCh c :: rest →
    (s.chan c).chLock ≠ .held g → s.agentStep g = s) ∧
  (∀ (s : State) (c : Nat) (rest : List Input), s.params.admissible = true →
    s.inbox = { kind := .run, turn := .dispatcher, quantum := 2 } :: rest → s.resting .dispatcher = true →
    c < s.ch.length →
    let s1 : State := { s with inbox := rest, inputs := s.inputs + 1, turn := .dispatcher, quantum := 2 }
    (s.ds = .txLock c → (s.chan c).chLock = .free →
      step s = .next ((s1.withDs (.tx c .start)).setChan c { s.chan c with chLock := .held .dispatcher })) ∧
    (∀ h, s.ds = .txLock c → (s.chan c).chLock = .held h → step s = .next s1) ∧
    (s.ds = .tx c .done → (s.chan c).chLock = .held .dispatcher →
      step s = .next ((s1.withDs (.pollLsr c)).setChan c { s.chan c with chLock := .free }))) ∧
  ∀ (s : State) (c : Nat) (g : Agent), s.ready g = true → c < s.params.nCh → c < s.ch.length →
    let locks := fun i : Instr => (g = .beginTx c ∧ i = .beginTx c) ∨ (g = .stopTx c ∧ i = .stopTx c) ∨
      (g = .stopTx c ∧ i = .txSettle c ∧ ¬(s.turn = .dispatcher ∧ s.ds = .tx c .settle)) ∨
      (g = .config c ∧ ((∃ d, i = .setDivisor c d) ∨ (∃ on, i = .configFlow c on) ∨ i = .startup c ∨
        ∃ p r, i = .setLine c p ∧ 5 ≤ p.wordLen ∧ p.wordLen ≤ 8 ∧ (p.stopBits = 1 ∨ p.stopBits = 2) ∧ p.parity ≠ none ∧
          computeDivisor s.params.clockHz p.baud = .ok r))
    let idle := ∀ h, h = .beginTx c ∨ h = .stopTx c ∨ h = .stopRx c ∨ h = .setMctrl c → (s.agent h).code = []
    let drop := fun (t : State) (h : Agent) => t.setAgent h { s.agent h with pending := [] }
    (∀ h, (s.chan c).chLock = .held h →
      (∀ i, locks i → 1 ≤ s.quantum →
        ∃ rest, exec i s = .next (s.setAgent g { s.agent g with code := .acquireCh c :: rest })) ∧
      (∀ cfg, g = .config c → 1 ≤ s.quantum →
        ∃ rest, exec (.rs485Set c cfg) s = .next (if Config.rs485Valid cfg
          then s.setAgent g { s.agent g with code := .acquireCh c :: rest }
          else s.show [.result g (.rejected .invalidControlRequest)])) ∧
      (g = .config c → idle → s.dlabWindow = none → (if c = 0 then 5 else 1) ≤ s.quantum →
        let s1 := if c = 0 then s.sent g .write c 1 [0x00#8] else s
        ∃ rest, exec (.shutdown c) s = .next ((drop (drop (drop (drop s1 (.beginTx c)) (.stopTx c)) (.stopRx c))
          (.setMctrl c)).setAgent g { s.agent g with code := .acquireCh c :: rest }))) ∧
    ((s.chan c).chLock = .free →
      ∀ i, ((locks i ∨ (g = .config c ∧ ∃ cfg, i = .rs485Set c cfg)) ∧ 2 ≤ s.quantum) ∨
          (g = .config c ∧ i = .shutdown c ∧ idle ∧ s.dlabWindow = none ∧ (if c = 0 then 6 else 2) ≤ s.quantum) →
        ∃ t, exec i s = .next t ∧ ((t.chan c).chLock = .held g ∨
          ((t.chan c).chLock = .free ∧ ∀ m ∈ (t.agent g).code, ∃ r, m = .ret r)))

/-! ## Divisor and line -/

/-- R150: COMPUTE_DIVISOR returns the floor quotient and the rounded rate, or rejects; it issues no transaction and changes no
state. -/
def Obligations.ComputeDivisorResult : Prop :=
  ∀ (s : State) (clockHz target : Nat), s.ready s.turn = true → 1 ≤ s.quantum →
    exec (.computeDivisor clockHz target) s = .next (s.show [.result s.turn
      (if target = 0 ∨ clockHz / (16 * target) = 0 ∨ 65535 < clockHz / (16 * target) then .rejected (.baudOutOfRange target)
        else .divisor (BitVec.ofNat 16 (clockHz / (16 * target)))
          ((clockHz + 8 * (clockHz / (16 * target))) / (16 * (clockHz / (16 * target)))))])

/-- R155: for every accepted input the divisor is 1 to 65535, the rate is within one half of clockHz/(16d) and not below the
target. -/
def Obligations.DivisorWithinBounds : Prop :=
  ∀ (clockHz target achieved : Nat) (d : Half), computeDivisor clockHz target = .ok (d, achieved) →
    1 ≤ d.toNat ∧ d.toNat ≤ 65535 ∧ achieved * (16 * d.toNat) ≤ clockHz + 8 * d.toNat ∧
      clockHz ≤ achieved * (16 * d.toNat) + 8 * d.toNat ∧ target ≤ achieved

/-- R156, R157, R158: SET_DIVISOR waits for the channel lock; with the lock it reads LCR, writes it with bit 7 set, writes the high
byte to offset 1 and the low byte to offset 0, writes LCR back, and leaves no window open and the lock free. From the first
statement of the sequence, the second of the request, until its last write has ended, the divisor window is the caller's and the
channel lock is held. That a request of it alone is run by the channel's configuration agent, which takes the lock and releases
it, and for d = 0 too, is DEDUCED (log 17). -/
def Obligations.SetDivisorSequence : Prop :=
  ∀ (s : State) (c : Nat) (d : Half), s.ready (.config c) = true → c < s.params.nCh → c < s.ch.length →
    ((s.chan c).chLock = .free → 25 ≤ s.quantum →
      exec (.setDivisor c d) s = .next (((s.divisorSet (.config c) c d).withWindow none).setAgent (.config c)
        { s.agent (.config c) with acc := s.drawBytes 1 })) ∧
    ((s.chan c).chLock = .free → 2 ≤ s.quantum → s.quantum ≤ 23 →
      ∃ t, exec (.setDivisor c d) s = .next t ∧ t.dlabWindow = some (.config c, c) ∧ (t.chan c).chLock = .held (.config c)) ∧
    ∀ h, (s.chan c).chLock = .held h → 1 ≤ s.quantum →
      ∃ rest, exec (.setDivisor c d) s = .next (s.setAgent (.config c) { s.agent (.config c) with code := .acquireCh c :: rest })

/-- R160: LCR_ENCODE: word length less 5 in bits 1:0, two stop bits in bit 2, parity on in bit 3, its mode in bits 5:4, break in
bit 6, bit 7 clear (the stop-bit value and the parity order are PRESUMED, log 11). -/
def Obligations.LcrEncodeFields : Prop :=
  ∀ (s : State) (w : WordLen) (st : StopBits) (p : Parity) (brk : Bool), s.ready s.turn = true → 1 ≤ s.quantum →
    ∃ v : Byte, exec (.lcrEncode w st p brk) s = .next (s.show [.result s.turn (.byte v)]) ∧
      v.extractLsb' 0 2 = (match w with | .five => 0#2 | .six => 1#2 | .seven => 2#2 | .eight => 3#2) ∧
      v.getLsbD 2 = (st == .two) ∧ v.getLsbD 3 = (p != .off) ∧
      v.extractLsb' 4 2 = (match p with | .off => 0#2 | .odd => 0#2 | .even => 1#2 | .mark => 2#2 | .space => 3#2) ∧
      v.getLsbD 6 = brk ∧ v.getLsbD 7 = false

/-- R163, R224: SET_LINE with operands in their sets and a baud rate in range: the masks, LCR, the divisor sequence and the
flow-control MCR write, in that order; the channel lock is free again (ChannelLockIsExclusive says it is held meanwhile). The LCR
byte is LCR_ENCODE of the word length, stop bits and parity with the break bit 0 (R160; the stop-bit value and the parity order
PRESUMED, log 11). MCR positions are PRESUMED (log 11). That the achieved rate is returned is DEDUCED (log 30): R163's pseudocode
returns it, R114's table has 'none or rejection'. -/
def Obligations.SetLineSequence : Prop :=
  ∀ (s : State) (c : Nat) (p : LineParams) (par : Parity) (d : Half) (achieved : Nat), s.ready (.config c) = true →
    c < s.params.nCh → c < s.ch.length → (s.chan c).chLock = .free → s.dlabWindow = none → 5 ≤ p.wordLen → p.wordLen ≤ 8 →
    (p.stopBits = 1 ∨ p.stopBits = 2) → p.parity = some par →
    computeDivisor s.params.clockHz p.baud = .ok (d, achieved) → s.params.mcr = Config.mcr → 39 ≤ s.quantum →
    let lcr : Byte := BitVec.ofNat 8 (p.wordLen - 5) ||| (if p.stopBits = 2 then 0x04#8 else 0x00#8) |||
      (match par with | .off => 0x00#8 | .odd => 0x08#8 | .even => 0x18#8 | .mark => 0x28#8 | .space => 0x38#8)
    let forced := if p.flow then (s.chan c).forced ||| 0x20#8 ||| 0x02#8 else (s.chan c).forced &&& ~~~0x20#8
    let s1 := s.sent (.config c) .write c 3 [lcr]
    exec (.setLine c p) s = .next ((((((s1.divisorSet (.config c) c d).sent (.config c) .write c 4
      [(s.chan c).mctrlReq ||| forced]).show (if p.flow then [.emit (.ctsChange c true)] else [])).show
        [.result (.config c) (.baud achieved)]).setChan c
          { s.chan c with readStatusMask := p.readStatusMask, ignoreMask := p.ignoreMask, forced := forced }).setAgent
            (.config c) { s.agent (.config c) with acc := s1.drawBytes 1 })

/-- R162, R163: SET_LINE with an operand outside its set, or a rate COMPUTE_DIVISOR rejects, returns the rejection: no
transaction, no lock, no state change. -/
def Obligations.SetLineRejects : Prop :=
  ∀ (s : State) (c : Nat) (p : LineParams), s.ready (.config c) = true → c < s.params.nCh → 1 ≤ s.quantum →
    (¬(5 ≤ p.wordLen ∧ p.wordLen ≤ 8 ∧ (p.stopBits = 1 ∨ p.stopBits = 2) ∧ p.parity ≠ none) →
      exec (.setLine c p) s = .next (s.show [.result (.config c) (.rejected .invalidControlRequest)])) ∧
    ((5 ≤ p.wordLen ∧ p.wordLen ≤ 8 ∧ (p.stopBits = 1 ∨ p.stopBits = 2) ∧ p.parity ≠ none) →
      ∀ e, computeDivisor s.params.clockHz p.baud = .error e →
        exec (.setLine c p) s = .next (s.show [.result (.config c) (.rejected e)]))

/-! ## Dispatcher -/

/-- R171, R172: a signal sets `sigPending` and nothing else, signals coalesce, and without a pending signal, or with a pass in
progress, DISPATCH_PASS has no step (the last is DESIGN CHOICE, log 4). -/
def Obligations.SignalsCoalesce : Prop :=
  ∀ s : State, exec .signal s = .next { s with sigPending := true } ∧
    exec .signal { s with sigPending := true } = .next { s with sigPending := true } ∧
    (s.ds ≠ .idle ∨ s.sigPending = false → exec .dispatchPass s = .next s)

/-- R172-R174, R178, R179: a pass in which every channel reports "no interrupt pending" reads LSR and IIR of each channel once,
in ascending order, logs the overruns it sees, and ends Idle with the signal served and nothing else changed. -/
def Obligations.EmptyPassVisitsEveryChannel : Prop :=
  ∀ (s : State) (xs : List ((Bool × Byte) × (Bool × Byte))) (rest : List Draw), s.ready .dispatcher = true → s.ds = .idle →
    s.sigPending = true → s.dlabWindow = none → 1 ≤ s.params.nCh → xs.length = s.params.nCh →
    (∀ x ∈ xs, x.2.2.getLsbD s.params.iir.noIntBit = true) →
    s.oracle = xs.flatMap (fun x => [answer x.1, answer x.2]) ++ rest → 11 * s.params.nCh ≤ s.quantum →
    ∃ acc, exec .dispatchPass s = .next
      { s with
        sigPending := false
        disp := { s.disp with acc := acc }
        out := s.out ++ xs.zipIdx.flatMap (fun y => readShown y.2 5 y.1.1 ++
          (if y.1.1.2.getLsbD 1 then [.log (.overrunSeen y.2)] else []) ++ readShown y.2 2 y.1.2)
        oracle := rest
        draws := s.draws + 2 * s.params.nCh }

/-- R174, R184: what each row of the IIR decode does when the dispatcher has read that byte: the next control state, and for an
unknown code the log event, in the same step (DESIGN CHOICE, log 32); nothing else changes (code values PRESUMED, log 11). A row
whose byte is not the one read is no step (log 4). -/
def Obligations.IdentificationDispatches : Prop :=
  ∀ (s : State) (c : Nat) (more : List Stmt) (v : Byte), s.attached = true → s.disp.stopped = false →
    s.disp.code = .iirDispatch c :: more → s.disp.acc = [v] → s.params.iir = Config.iir →
    let go := fun (t : State) (d : DState) => t.withDs d |>.setAgent .dispatcher { s.disp with code := more }
    let unknown := go (s.show [.log (.unexpectedInterruptSource c v)]) (.nextCh c)
    (∀ x, v = x ++ 1#1 → exec (.iirNoint x) s = .next (go s (.nextCh c))) ∧
    (∀ hi, v = hi ++ 0x0#4 → exec (.iirMsi hi) s = .next (go s (.msi c))) ∧
    (∀ hi, v = hi ++ 0x2#4 → exec (.iirThre hi) s = .next (go s (.txLock c))) ∧
    (∀ hi, v = hi ++ 0x4#4 → exec (.iirRda hi) s = .next (go s (.rx c .rda .start))) ∧
    (∀ hi, v = hi ++ 0x6#4 → exec (.iirRls hi) s = .next (go s (.rx c .rls .start))) ∧
    (∀ hi, v = hi ++ 0xC#4 → exec (.iirRto hi) s = .next (go s (.rx c .rto .start))) ∧
    (∀ hi, v = hi ++ 0x8#4 → exec (.iirUnknown08 hi) s = .next unknown) ∧
    (∀ hi, v = hi ++ 0xA#4 → exec (.iirUnknown0A hi) s = .next unknown) ∧
    (∀ hi, v = hi ++ 0xE#4 → exec (.iirUnknown0E hi) s = .next unknown) ∧
    ∀ i w, encode i = some (.iir w) → w ≠ v → exec i s = .next s

/-! ## Receive service -/

/-- R190-R197: the receive service drains. On a line-status source it first reads LSR, whose FIFO-error bit is clear here, and
falls through (`first`). It then waits for data ready, reading LSR each time; reads and classifies a byte for each line status
that shows data ready; stops at the first that does not; and flushes one batch. Nothing else changes. -/
def Obligations.RxServiceDrains : Prop :=
  ∀ (s : State) (c : Nat) (src : RxSource) (first waits : List (Bool × Byte)) (xs : List ((Bool × Byte) × (Bool × Byte)))
    (last : Bool × Byte) (rest : List Draw), s.resting .dispatcher = true → s.ds = .rx c src .start →
    c < s.params.nCh → c < s.ch.length → s.dlabWindow = none →
    (if src = .rls then ∃ x, first = [x] ∧ x.2.getLsbD 7 = false else first = []) →
    (∀ x ∈ waits, x.2.getLsbD 0 = false) → (∀ x ∈ xs, x.1.2.getLsbD 0 = true) → xs ≠ [] → last.2.getLsbD 0 = false →
    s.oracle = (first ++ waits).map answer ++ xs.flatMap (fun x => [answer x.1, answer x.2]) ++ answer last :: rest →
    11 + 5 * waits.length + 10 * xs.length ≤ s.quantum →
    exec (.rxService c src) s = .next
      { s with
        ds := .pollLsr c
        disp := { s.disp with acc := [last.2] }
        ch := s.ch.set c { (s.chan c).drained xs with rxBatch := [] }
        out := s.out ++ (first ++ waits).flatMap (readShown c 5) ++
          xs.flatMap (fun x => readShown c 5 x.1 ++ readShown c 0 x.2) ++ readShown c 5 last ++
          batchShown c ((s.chan c).drained xs).rxBatch
        oracle := rest
        draws := s.draws + (first.length + waits.length + 2 * xs.length + 1) }

/-- R191, R192, R197: on a line-status source with the FIFO-error bit set, exactly one byte is read, classified with that line
status, and flushed, whatever the data-ready bit. Nothing else changes. -/
def Obligations.RxLineErrorReadsOneByte : Prop :=
  ∀ (s : State) (c : Nat) (x : (Bool × Byte) × (Bool × Byte)) (rest : List Draw), s.resting .dispatcher = true →
    s.ds = .rx c .rls .start → c < s.params.nCh → c < s.ch.length → s.dlabWindow = none → x.1.2.getLsbD 7 = true →
    s.oracle = answer x.1 :: answer x.2 :: rest → 11 ≤ s.quantum →
    exec (.rxService c .rls) s = .next
      { s with
        ds := .pollLsr c
        disp := { s.disp with acc := [x.2.2] }
        ch := s.ch.set c { (s.chan c).drained [x] with rxBatch := [] }
        out := s.out ++ readShown c 5 x.1 ++ readShown c 0 x.2 ++ batchShown c ((s.chan c).drained [x]).rxBatch
        oracle := rest
        draws := s.draws + 2 }

/-- R196: CLASSIFY counts and flags one condition of break, parity and frame, break clearing the other two; counts overrun on
its own; reports through the read-status mask; and forwards by the ignore mask without overrun. -/
def Obligations.ClassifyPriority : Prop :=
  ∀ (x : Chan) (b l : Byte),
    let brk := l.getLsbD 4
    let par := l.getLsbD 2 && !brk
    let frm := l.getLsbD 3 && !brk
    let ignored := (brk && x.ignoreMask.getLsbD 4) || (par && x.ignoreMask.getLsbD 2) || (frm && x.ignoreMask.getLsbD 3)
    let flag : RxFlag := if brk && x.readStatusMask.getLsbD 4 then .brk
      else if par && x.readStatusMask.getLsbD 2 then .parity
      else if frm && x.readStatusMask.getLsbD 3 then .frame else .normal
    x.classify b l =
      { x with
        counters :=
          { x.counters with
            rx := x.counters.rx + 1
            brk := x.counters.brk + brk.toNat
            parity := x.counters.parity + par.toNat
            frame := x.counters.frame + (frm && !par).toNat
            overrun := x.counters.overrun + (l.getLsbD 1).toNat }
        rxBatch := x.rxBatch ++ (if ignored then [] else [(b, flag)]) }

/-! ## Transmit and modem-status services -/

/-- R203, R204: a pending control byte is written to THR ahead of the queue, stopped or not, counted, and cleared; the service
ends. -/
def Obligations.TxServiceSendsControlByte : Prop :=
  ∀ (s : State) (c : Nat) (b : Byte), s.resting .dispatcher = true → s.ds = .tx c .start → c < s.params.nCh →
    c < s.ch.length → s.hazard .dispatcher c (writeCmd c 0) = none → (s.chan c).xChar = some b → 7 ≤ s.quantum →
    exec (.txService c) s = .next (((s.sent .dispatcher .write c 0 [b]).withDs (.tx c .done)).setChan c
      { s.chan c with
        xChar := none, counters := { (s.chan c).counters with tx := (s.chan c).counters.tx + 1 } })

/-- R206-R208: with bytes queued and not stopped, one burst of the first min(len, 16) bytes, which leave the queue and are
counted, and a wake notification if fewer than `lowWater` remain. -/
def Obligations.TxServiceSendsBurst : Prop :=
  ∀ (s : State) (c : Nat), s.resting .dispatcher = true → s.ds = .tx c .start → c < s.params.nCh →
    c < s.ch.length → s.hazard .dispatcher c (burstWriteCmd c) = none → (s.chan c).xChar = none →
    (s.chan c).txQueue ≠ [] → (s.chan c).txStopped = false → 9 ≤ s.quantum →
    let n := min (s.chan c).txQueue.length 16
    let burst := (s.chan c).txQueue.take n
    exec (.txService c) s = .next (((((s.sent .dispatcher .burstWrite c 0 burst).show
      (if (s.chan c).txQueue.length - n < s.params.lowWater then [.emit (.wakeWriters c)] else [])).withScratch
        (burst ++ s.scratch.drop n)).withDs (.tx c .done)).setChan c
          { s.chan c with
            txQueue := (s.chan c).txQueue.drop n
            counters := { (s.chan c).counters with tx := (s.chan c).counters.tx + n } })

/-- R205, R211: with nothing to send, or stopped, the disable path runs and the service ends; the queue is untouched. -/
def Obligations.TxServiceSettles : Prop :=
  ∀ (s : State) (c : Nat), s.resting .dispatcher = true → s.ds = .tx c .start → c < s.params.nCh →
    c < s.ch.length → s.dlabWindow = none → (s.chan c).life ≠ .shut → (s.chan c).xChar = none →
    ((s.chan c).txQueue = [] ∨ (s.chan c).txStopped = true) → 16 ≤ s.quantum →
    exec (.txService c) s = .next (((s.settled .dispatcher c).1.withDs (.tx c .done)).setAgent .dispatcher
      { s.disp with acc := (s.settled .dispatcher c).2 })

/-- R210: the modem-status service reads MSR once and caches the byte; nothing is notified. -/
def Obligations.MsiServiceCachesByte : Prop :=
  ∀ (s : State) (c : Nat), s.resting .dispatcher = true → s.ds = .msi c → c < s.params.nCh →
    s.hazard .dispatcher c (readCmd c 6) = none → 5 ≤ s.quantum →
    exec (.msiService c) s = .next ((((s.received .dispatcher .read c 6 1).withDs (.pollLsr c)).setChan c
      { s.chan c with msrCache := some ((s.drawBytes 1).headD 0#8) }).setAgent .dispatcher
        { s.disp with acc := s.drawBytes 1 })

/-- R211, R218: STOP_TX waits for the channel lock, and once it is free runs TX_SETTLE and leaves it free; that it holds the lock
meanwhile is in ChannelLockIsExclusive. TX_SETTLE, with RS-485 on, reads
LSR; transmitter not empty defers, IER unchanged; else the post-send delay if the queue is empty; then IER bit 1 is cleared by
UPDATE and the session ends. With RS-485 off, the UPDATE alone. A request of TX_SETTLE alone is run by one of its two callers: by
the dispatcher where it is at the settling of its transmit service, otherwise by the stop-transmit task (DEDUCED, log 17). -/
def Obligations.TxSettleCases : Prop :=
  (∀ (s : State) (c : Nat) (i : Instr), s.ready (.stopTx c) = true → c < s.params.nCh → c < s.ch.length →
    (i = .stopTx c ∨ (i = .txSettle c ∧ ¬(s.turn = .dispatcher ∧ s.ds = .tx c .settle))) →
    ((s.chan c).chLock = .free → s.dlabWindow = none → (s.chan c).life ≠ .shut → 15 ≤ s.quantum →
      exec i s = .next ((s.settled (.stopTx c) c).1.setAgent (.stopTx c)
        { s.agent (.stopTx c) with acc := (s.settled (.stopTx c) c).2 })) ∧
    ∀ h, (s.chan c).chLock = .held h → 1 ≤ s.quantum →
      ∃ rest, exec i s = .next (s.setAgent (.stopTx c) { s.agent (.stopTx c) with code := .acquireCh c :: rest })) ∧
  ∀ (s : State) (c : Nat), s.turn = .dispatcher → s.resting .dispatcher = true → s.ds = .tx c .settle → c < s.params.nCh →
    c < s.ch.length → (s.chan c).chLock = .held .dispatcher → s.dlabWindow = none → (s.chan c).life ≠ .shut →
    14 ≤ s.quantum →
    exec (.txSettle c) s = .next (((s.settled .dispatcher c).1.withDs (.tx c .done)).setAgent .dispatcher
      { s.disp with acc := (s.settled .dispatcher c).2 })

/-! ## Host tasks and control requests -/

/-- R216, R217: BEGIN_TX sleeps the pre-send delay on the first request of a session only, marks the session, and sets IER bit 1
by UPDATE; it sends no bytes. -/
def Obligations.BeginTxEnablesThre : Prop :=
  ∀ (s : State) (c : Nat), s.ready (.beginTx c) = true → c < s.params.nCh → c < s.ch.length → (s.chan c).chLock = .free →
    s.dlabWindow = none → (s.chan c).life ≠ .shut → 10 ≤ s.quantum →
    let s1 := if (s.chan c).txActive = false ∧ (s.chan c).rs485.enabled = true ∧ 0 < (s.chan c).rs485.preDelay
      then s.show [.sleep (.beginTx c) (s.chan c).rs485.preDelay] else s
    exec (.beginTx c) s = .next (((s1.updated (.beginTx c) c 1 0x02#8 0x02#8).setChan c
      { s.chan c with txActive := true }).setAgent (.beginTx c) { s.agent (.beginTx c) with acc := s1.drawBytes 1 })

/-- R219: STOP_RX clears the receive enables of IER by UPDATE and takes no channel lock. -/
def Obligations.StopRxClearsEnables : Prop :=
  ∀ (s : State) (c : Nat), s.ready (.stopRx c) = true → c < s.params.nCh → s.dlabWindow = none →
    (s.chan c).life ≠ .shut → 5 ≤ s.quantum →
    exec (.stopRx c) s = .next ((s.updated (.stopRx c) c 1 s.params.stopRxMask 0x00#8).setAgent (.stopRx c)
      { s.agent (.stopRx c) with acc := s.drawBytes 1 })

/-- R220: SET_MCTRL keeps the five request bits and writes them with the forced bits to MCR; it takes no channel lock (MCR
positions PRESUMED, log 11). R221: the MCR write of SET_MCTRL, of the flow-control body and of STARTUP, when it is issued, carries
the request and the forced bits that the channel holds then. That they are taken at the transaction, not where the pseudocode
computes its operand, is DEDUCED (log 22). -/
def Obligations.SetMctrlWritesForcedBits : Prop :=
  (∀ (s : State) (c : Nat) (bits : Byte), s.ready (.setMctrl c) = true → c < s.params.nCh → c < s.ch.length →
    s.dlabWindow = none → (s.chan c).life ≠ .shut → s.params.mcr = Config.mcr → 5 ≤ s.quantum →
    exec (.setMctrl c bits) s = .next ((s.sent (.setMctrl c) .write c 4 [(bits &&& 0x1F#8) ||| (s.chan c).forced]).setChan c
      { s.chan c with mctrlReq := bits &&& 0x1F#8 })) ∧
  ∀ (s : State) (g : Agent) (c : Nat) (rest : List Stmt), s.canStep g = true → s.busLock = .held g →
    s.nextCode g = .txnMcr c :: rest → s.hazard g c (writeCmd c 4) = none →
    s.agentStep g = (s.sent g .write c 4 [(s.chan c).mctrlReq ||| (s.chan c).forced]).setAgent g
      { s.agent g with code := rest }

/-- R222, R223: GET_STATUS returns the cached byte decoded, 0xB0 as (1, 0, 0, 1), with no transaction; with no byte cached it
raises MsrUnknown. -/
def Obligations.GetStatusIsCached : Prop :=
  ∀ (s : State) (c : Nat), s.ready (.config c) = true → c < s.params.nCh → 1 ≤ s.quantum →
    (∀ m, (s.chan c).msrCache = some m →
      exec (.getStatus c) s = .next (s.show [.result (.config c) (.lines (Config.msrDecode m))])) ∧
    ((s.chan c).msrCache = some 0xB0#8 → exec (.getStatus c) s = .next (s.show
      [.result (.config c) (.lines { cts := true, dsr := false, ri := false, dcd := true })])) ∧
    ((s.chan c).msrCache = none → ∃ code, exec (.getStatus c) s = .next ((s.addFault (.msrUnknown c)).setAgent (.config c)
      { s.agent (.config c) with code := code, stopped := true }))

/-- R224, R225: CONFIG_FLOW: enabling forces AFE and RTS, writes MCR and notifies CTS asserted; disabling clears AFE only and
writes MCR; the cached modem status does not change (MCR positions PRESUMED, log 11). -/
def Obligations.ConfigFlowWritesMcr : Prop :=
  ∀ (s : State) (c : Nat) (enabled : Bool), s.ready (.config c) = true → c < s.params.nCh → c < s.ch.length →
    (s.chan c).chLock = .free → s.dlabWindow = none → s.params.mcr = Config.mcr → 8 ≤ s.quantum →
    let forced := if enabled then (s.chan c).forced ||| 0x20#8 ||| 0x02#8 else (s.chan c).forced &&& ~~~0x20#8
    exec (.configFlow c enabled) s = .next (((s.sent (.config c) .write c 4 [(s.chan c).mctrlReq ||| forced]).show
      (if enabled then [.emit (.ctsChange c true)] else [])).setChan c { s.chan c with forced := forced })

/-- R226: RS485_GET returns the configuration and issues no transaction. -/
def Obligations.Rs485GetReturnsConfig : Prop :=
  ∀ (s : State) (c : Nat), s.ready (.config c) = true → c < s.params.nCh → 1 ≤ s.quantum →
    exec (.rs485Get c) s = .next (s.show [.result (.config c) (.rs485 (s.chan c).rs485)])

/-- R227: RS485_SET stores a valid configuration under the channel lock and rejects another; it issues no transaction. -/
def Obligations.Rs485SetStoresOrRejects : Prop :=
  ∀ (s : State) (c : Nat) (cfg : Rs485), s.ready (.config c) = true → c < s.params.nCh → c < s.ch.length →
    (s.chan c).chLock = .free → 4 ≤ s.quantum →
    exec (.rs485Set c cfg) s = .next (if Config.rs485Valid cfg then s.setChan c { s.chan c with rs485 := cfg }
      else s.show [.result (.config c) (.rejected .invalidControlRequest)])

/-- R228: a request of an agent that is busy (or, log 29, of the dispatcher in a pass), or that is granted no statement yet, joins
the end of its pending list and changes nothing else. An idle task agent may drop any pending request but the last, before it
starts one. An idle agent that has the turn starts its first pending request and removes it from the list. The inputs are the
model's (log 1), one drop at a time (log 19). -/
def Obligations.PendingRequests : Prop :=
  (∀ (s : State) (g : Agent) (i : Instr), s.askedOf i = some g →
    s.isIdle g = false ∨ s.quantum = 0 ∨ (g = .dispatcher ∧ s.ds ≠ .idle) →
    exec i s = .next (s.setAgent g { s.agent g with pending := (s.agent g).pending ++ [i] })) ∧
  (∀ (s : State) (g : Agent) (k q : Nat) (rest : List Input), s.params.admissible = true →
    s.inbox = { kind := .dropPending k, turn := g, quantum := q } :: rest → s.attached = true → s.isIdle g = true →
    g.isDeferred = true → k + 1 < (s.agent g).pending.length →
    step s = .next (State.setAgent { s with inbox := rest, inputs := s.inputs + 1, turn := g, quantum := q } g
      { s.agent g with pending := (s.agent g).pending.eraseIdx k })) ∧
  ∀ (s : State) (g : Agent) (i : Instr) (more : List Instr) (q : Nat) (rest : List Input), s.params.admissible = true →
    s.inbox = { kind := .run, turn := g, quantum := q } :: rest → s.attached = true → s.hasAgent g = true →
    s.isIdle g = true → (g = .dispatcher → s.ds = .idle) → (s.agent g).pending = i :: more → 0 < q →
    step s = .next (State.runWhile (State.agentBusy g) q g (State.setAgent
      { s with inbox := rest, inputs := s.inputs + 1, turn := g, quantum := q } g
      { s.agent g with code := requestCode s.params i, pending := more }))

/-! ## Attach, startup, shutdown -/

/-- R64, R270: the state at reset, for the fields the spec gives a value. -/
def Obligations.ResetValues : Prop :=
  State.reset.busLock = .free ∧ State.reset.sigPending = false ∧ State.reset.ds = .idle ∧ State.reset.dlabWindow = none ∧
  State.reset.faults = [] ∧ State.reset.ch.length = 2 ∧ (∀ g, State.reset.isIdle g = true ∧ (State.reset.agent g).pending = []) ∧
  ∀ c, c < 2 → State.reset.chan c =
    { index := c, msrCache := none, forced := 0x00#8, mctrlReq := 0x00#8
      rs485 := { enabled := false, preDelay := 0, postDelay := 0 }
      readStatusMask := Config.initReadStatusMask, ignoreMask := Config.initIgnoreMask, txQueue := [], xChar := none
      txStopped := false, counters := { rx := 0, tx := 0, overrun := 0, parity := 0, frame := 0, brk := 0 }
      chLock := .free, txActive := false, life := .attached, rxBatch := [] }

/-- R274: ATTACH gives the block's state its values at attach and writes IER 0, MCR 0 and FCR reset on every channel, ascending;
faults, the agents they stopped and the scratch buffer are kept (log 13). That the values are taken before the writes is DESIGN
CHOICE (log 33). That it is run by configuration agent 0, and the field `attached`, are log 14. -/
def Obligations.AttachWritesEveryChannel : Prop :=
  ∀ s : State, s.isIdle (.config 0) = true → (s.agent (.config 0)).pending = [] → 1 ≤ s.params.nCh →
    s.tasks.length = s.params.nCh → 12 * s.params.nCh + 2 ≤ s.quantum →
    let s0 : State :=
      { s with
        busLock := .free, ch := (List.range s.params.nCh).map (Chan.init s.params), sigPending := false, ds := .idle
        dlabWindow := none, attached := true
        disp := { code := [], acc := [], pending := [], stopped := s.disp.stopped }
        tasks := s.tasks.map fun a =>
          { beginTx := { stopped := a.beginTx.stopped }, stopTx := { stopped := a.stopTx.stopped }
            stopRx := { stopped := a.stopRx.stopped }, setMctrl := { stopped := a.setMctrl.stopped }
            config := { stopped := a.config.stopped } } }
    exec .attach s = .next (((List.range s.params.nCh).foldl (fun t c => t.chanAttached (.config 0) c) s0).setAgent
      (.config 0) (s.agent (.config 0)))

/-- R273: until ATTACH has ended, no agent steps but the one that runs it. That this is configuration agent 0, and the field
`attached`, are the model's choice (log 14). -/
def Obligations.NothingStepsBeforeAttach : Prop :=
  ∀ (s : State) (g : Agent), s.attached = false → g ≠ .config 0 → s.agentStep g = s

/-- R276, R277: STARTUP: FIFO reset, the wait, FIFO enable, LCR 0x03, IER 0x0D, OUT2 forced and MCR written; the session is over
and the channel open (MCR positions PRESUMED, log 11). -/
def Obligations.StartupSequence : Prop :=
  ∀ (s : State) (c : Nat), s.ready (.config c) = true → c < s.params.nCh → c < s.ch.length → (s.chan c).chLock = .free →
    s.dlabWindow = none → s.params.mcr = Config.mcr → 26 ≤ s.quantum →
    let g := Agent.config c
    let forced := (s.chan c).forced ||| 0x08#8
    exec (.startup c) s = .next (((((((s.sent g .write c 2 [s.params.fcrReset]).show
      [.sleep g s.params.fifoResetDelay]).sent g .write c 2 [s.params.fcrEnable]).sent g .write c 3 [0x03#8]).sent
        g .write c 1 [0x0D#8]).sent g .write c 4 [(s.chan c).mctrlReq ||| forced]).setChan c
          { s.chan c with forced := forced, txActive := false, life := .opened })

/-- R279, R280, R281: SHUTDOWN writes IER 0 for channel 0 only and drops the pending requests of the four task agents. While one of
them has statements left it waits: no MCR write, and the channel's life, session and lock are as they were. Once they are idle it
writes MCR 0 and the power-down writes, and leaves the channel shut, its forced bits kept. The power-down writes by named channel
in list order are log 16; that an agent a fault has stopped counts as idle when it has no statement left is DEDUCED (log 12). -/
def Obligations.ShutdownSequence : Prop :=
  ∀ (s : State) (c : Nat), s.ready (.config c) = true → c < s.params.nCh → c < s.ch.length → s.dlabWindow = none →
    let g := Agent.config c
    let task := fun h : Agent => h = .beginTx c ∨ h = .stopTx c ∨ h = .stopRx c ∨ h = .setMctrl c
    let drop := fun (t : State) (h : Agent) => t.setAgent h { s.agent h with pending := [] }
    let dropAll := fun t : State => drop (drop (drop (drop t (.beginTx c)) (.stopTx c)) (.stopRx c)) (.setMctrl c)
    let s1 := if c = 0 then s.sent g .write c 1 [0x00#8] else s
    let s2 := (s.params.powerDownSeq.filter fun w => w.chan == c).foldl (fun t w => t.sent g .write c w.reg [w.value])
      (s1.sent g .write c 4 [0x00#8])
    ((∀ h, task h → (s.agent h).code = []) → (s.chan c).chLock = .free → (∀ w ∈ s.params.powerDownSeq, w.reg < 8) →
      13 + 4 * s.params.powerDownSeq.length ≤ s.quantum →
      exec (.shutdown c) s = .next ((dropAll s2).setChan c { s.chan c with txActive := false, life := .shut })) ∧
    ((∃ h, task h ∧ (s.agent h).code ≠ []) → (if c = 0 then 5 else 1) ≤ s.quantum →
      ∃ rest, exec (.shutdown c) s = .next ((dropAll s1).setAgent g { s.agent g with code := .awaitTasks c :: rest }))

/-! ## Whole-machine rules -/

/-- Tier 3: every step keeps the shape of the state: exactly N channels, each with its own index, N sets of agents, and a scratch
buffer of 16 bytes (R30, R32, R36, R37). -/
def Obligations.StepKeepsShape : Prop := ∀ s t : State, s.Shape → step s = .next t → t.Shape

/-- The state at reset meets both invariants, and nothing has been shown. -/
def Obligations.ResetMeetsInvariants : Prop := State.reset.Shape ∧ State.reset.Issued ∧ State.reset.out = []

/-- Tier 3: every step keeps this: every transaction shown has bit 0 of its command clear and a channel below N, and carries at
least one data byte, a write at most 16 (R101, R106, R109, R110). -/
def Obligations.StepKeepsIssuedLegal : Prop := ∀ s t : State, s.Issued → step s = .next t → t.Issued

/-- R246: a fault is never removed by any step. -/
def Obligations.FaultsAreNeverRemoved : Prop :=
  ∀ (s t : State) (f : ModelFault), f ∈ s.faults → step s = .next t → f ∈ t.faults

/-- R272: no step changes a parameter. -/
def Obligations.ParametersAreFixed : Prop := ∀ s t : State, step s = .next t → t.params = s.params

/-- R38: a statement that changes a channel's cached modem status is the modem-status service's, or ATTACH's initialisation. -/
def Obligations.MsrCacheWrittenByMsiOnly : Prop :=
  ∀ (s : State) (g : Agent) (c : Nat), ((s.agentStep g).chan c).msrCache ≠ (s.chan c).msrCache →
    ∃ rest, s.nextCode g = .cacheMsr c :: rest ∨ s.nextCode g = .initState :: rest

/-- R44: the block only ever removes bytes from the front of the outgoing queue, and only in the transmit service (or at
ATTACH's initialisation). -/
def Obligations.QueueDrainedByTxOnly : Prop :=
  ∀ (s : State) (g : Agent) (c : Nat),
    ((s.agentStep g).chan c).txQueue = (s.chan c).txQueue ∨
      ∃ n rest, (s.nextCode g = .txBurstDone c n :: rest ∧ ((s.agentStep g).chan c).txQueue = (s.chan c).txQueue.drop n) ∨
        s.nextCode g = .initState :: rest

/-- R10, R256: the quantum granted to an agent adds no behaviour. An operation granted m statements, and then a turn of n, leaves
what the operation granted m + n leaves, for every operation requested of an agent and for DISPATCH_PASS, whatever m and n, but
for the record of the input taken (quantum and turn are the model's own, log 1). -/
def Obligations.QuantumSplitsAnywhere : Prop :=
  ∀ (s : State) (i : Instr) (g : Agent) (m n : Nat) (rest : List Input), s.params.admissible = true →
    s.inbox = { kind := .run, turn := g, quantum := n } :: rest → s.isIdle g = true → (s.agent g).pending = [] →
    s.hasAgent g = true →
    ((s.askedOf i = some g ∧ g ≠ .dispatcher) ∨
      (i = .dispatchPass ∧ g = .dispatcher ∧ s.ds = .idle ∧ s.sigPending = true ∧ s.attached = true)) →
    ∃ t u, exec i { s with quantum := m } = .next t ∧ exec i { s with quantum := m + n } = .next u ∧
      step t = .next { u with inbox := rest, inputs := s.inputs + 1, turn := g, quantum := n }
end

