-- ==== Sys2Proof/Laws/State.lean ====
section
/-! SUPPORT. One lemma per field per update of the state, the agents and channels read through each update, and the order in
which updates are written: what is shown first, then the locks, the window, the scratch buffer, the dispatcher's control state,
the channels, and the agents outermost. -/

namespace Sys2Proof.Machine

variable (s : State)


/-! ## `withBus` -/

@[simp] theorem State.withBus_params (l : Lock) : (s.withBus l).params = s.params := (rfl)
@[simp] theorem State.withBus_busLock (l : Lock) : (s.withBus l).busLock = l := (rfl)
@[simp] theorem State.withBus_scratch (l : Lock) : (s.withBus l).scratch = s.scratch := (rfl)
@[simp] theorem State.withBus_ch (l : Lock) : (s.withBus l).ch = s.ch := (rfl)
@[simp] theorem State.withBus_sigPending (l : Lock) : (s.withBus l).sigPending = s.sigPending := (rfl)
@[simp] theorem State.withBus_ds (l : Lock) : (s.withBus l).ds = s.ds := (rfl)
@[simp] theorem State.withBus_dlabWindow (l : Lock) : (s.withBus l).dlabWindow = s.dlabWindow := (rfl)
@[simp] theorem State.withBus_faults (l : Lock) : (s.withBus l).faults = s.faults := (rfl)
@[simp] theorem State.withBus_disp (l : Lock) : (s.withBus l).disp = s.disp := (rfl)
@[simp] theorem State.withBus_tasks (l : Lock) : (s.withBus l).tasks = s.tasks := (rfl)
@[simp] theorem State.withBus_attached (l : Lock) : (s.withBus l).attached = s.attached := (rfl)
@[simp] theorem State.withBus_out (l : Lock) : (s.withBus l).out = s.out := (rfl)
@[simp] theorem State.withBus_inbox (l : Lock) : (s.withBus l).inbox = s.inbox := (rfl)
@[simp] theorem State.withBus_oracle (l : Lock) : (s.withBus l).oracle = s.oracle := (rfl)
@[simp] theorem State.withBus_draws (l : Lock) : (s.withBus l).draws = s.draws := (rfl)
@[simp] theorem State.withBus_inputs (l : Lock) : (s.withBus l).inputs = s.inputs := (rfl)
@[simp] theorem State.withBus_turn (l : Lock) : (s.withBus l).turn = s.turn := (rfl)
@[simp] theorem State.withBus_quantum (l : Lock) : (s.withBus l).quantum = s.quantum := (rfl)

/-! ## `withWindow` -/

@[simp] theorem State.withWindow_params (w : Option (Agent × Nat)) : (s.withWindow w).params = s.params := (rfl)
@[simp] theorem State.withWindow_busLock (w : Option (Agent × Nat)) : (s.withWindow w).busLock = s.busLock := (rfl)
@[simp] theorem State.withWindow_scratch (w : Option (Agent × Nat)) : (s.withWindow w).scratch = s.scratch := (rfl)
@[simp] theorem State.withWindow_ch (w : Option (Agent × Nat)) : (s.withWindow w).ch = s.ch := (rfl)
@[simp] theorem State.withWindow_sigPending (w : Option (Agent × Nat)) : (s.withWindow w).sigPending = s.sigPending := (rfl)
@[simp] theorem State.withWindow_ds (w : Option (Agent × Nat)) : (s.withWindow w).ds = s.ds := (rfl)
@[simp] theorem State.withWindow_dlabWindow (w : Option (Agent × Nat)) : (s.withWindow w).dlabWindow = w := (rfl)
@[simp] theorem State.withWindow_faults (w : Option (Agent × Nat)) : (s.withWindow w).faults = s.faults := (rfl)
@[simp] theorem State.withWindow_disp (w : Option (Agent × Nat)) : (s.withWindow w).disp = s.disp := (rfl)
@[simp] theorem State.withWindow_tasks (w : Option (Agent × Nat)) : (s.withWindow w).tasks = s.tasks := (rfl)
@[simp] theorem State.withWindow_attached (w : Option (Agent × Nat)) : (s.withWindow w).attached = s.attached := (rfl)
@[simp] theorem State.withWindow_out (w : Option (Agent × Nat)) : (s.withWindow w).out = s.out := (rfl)
@[simp] theorem State.withWindow_inbox (w : Option (Agent × Nat)) : (s.withWindow w).inbox = s.inbox := (rfl)
@[simp] theorem State.withWindow_oracle (w : Option (Agent × Nat)) : (s.withWindow w).oracle = s.oracle := (rfl)
@[simp] theorem State.withWindow_draws (w : Option (Agent × Nat)) : (s.withWindow w).draws = s.draws := (rfl)
@[simp] theorem State.withWindow_inputs (w : Option (Agent × Nat)) : (s.withWindow w).inputs = s.inputs := (rfl)
@[simp] theorem State.withWindow_turn (w : Option (Agent × Nat)) : (s.withWindow w).turn = s.turn := (rfl)
@[simp] theorem State.withWindow_quantum (w : Option (Agent × Nat)) : (s.withWindow w).quantum = s.quantum := (rfl)

/-! ## `withScratch` -/

@[simp] theorem State.withScratch_params (l : List Byte) : (s.withScratch l).params = s.params := (rfl)
@[simp] theorem State.withScratch_busLock (l : List Byte) : (s.withScratch l).busLock = s.busLock := (rfl)
@[simp] theorem State.withScratch_scratch (l : List Byte) : (s.withScratch l).scratch = l := (rfl)
@[simp] theorem State.withScratch_ch (l : List Byte) : (s.withScratch l).ch = s.ch := (rfl)
@[simp] theorem State.withScratch_sigPending (l : List Byte) : (s.withScratch l).sigPending = s.sigPending := (rfl)
@[simp] theorem State.withScratch_ds (l : List Byte) : (s.withScratch l).ds = s.ds := (rfl)
@[simp] theorem State.withScratch_dlabWindow (l : List Byte) : (s.withScratch l).dlabWindow = s.dlabWindow := (rfl)
@[simp] theorem State.withScratch_faults (l : List Byte) : (s.withScratch l).faults = s.faults := (rfl)
@[simp] theorem State.withScratch_disp (l : List Byte) : (s.withScratch l).disp = s.disp := (rfl)
@[simp] theorem State.withScratch_tasks (l : List Byte) : (s.withScratch l).tasks = s.tasks := (rfl)
@[simp] theorem State.withScratch_attached (l : List Byte) : (s.withScratch l).attached = s.attached := (rfl)
@[simp] theorem State.withScratch_out (l : List Byte) : (s.withScratch l).out = s.out := (rfl)
@[simp] theorem State.withScratch_inbox (l : List Byte) : (s.withScratch l).inbox = s.inbox := (rfl)
@[simp] theorem State.withScratch_oracle (l : List Byte) : (s.withScratch l).oracle = s.oracle := (rfl)
@[simp] theorem State.withScratch_draws (l : List Byte) : (s.withScratch l).draws = s.draws := (rfl)
@[simp] theorem State.withScratch_inputs (l : List Byte) : (s.withScratch l).inputs = s.inputs := (rfl)
@[simp] theorem State.withScratch_turn (l : List Byte) : (s.withScratch l).turn = s.turn := (rfl)
@[simp] theorem State.withScratch_quantum (l : List Byte) : (s.withScratch l).quantum = s.quantum := (rfl)

/-! ## `withDs` -/

@[simp] theorem State.withDs_params (d : DState) : (s.withDs d).params = s.params := (rfl)
@[simp] theorem State.withDs_busLock (d : DState) : (s.withDs d).busLock = s.busLock := (rfl)
@[simp] theorem State.withDs_scratch (d : DState) : (s.withDs d).scratch = s.scratch := (rfl)
@[simp] theorem State.withDs_ch (d : DState) : (s.withDs d).ch = s.ch := (rfl)
@[simp] theorem State.withDs_sigPending (d : DState) : (s.withDs d).sigPending = s.sigPending := (rfl)
@[simp] theorem State.withDs_ds (d : DState) : (s.withDs d).ds = d := (rfl)
@[simp] theorem State.withDs_dlabWindow (d : DState) : (s.withDs d).dlabWindow = s.dlabWindow := (rfl)
@[simp] theorem State.withDs_faults (d : DState) : (s.withDs d).faults = s.faults := (rfl)
@[simp] theorem State.withDs_disp (d : DState) : (s.withDs d).disp = s.disp := (rfl)
@[simp] theorem State.withDs_tasks (d : DState) : (s.withDs d).tasks = s.tasks := (rfl)
@[simp] theorem State.withDs_attached (d : DState) : (s.withDs d).attached = s.attached := (rfl)
@[simp] theorem State.withDs_out (d : DState) : (s.withDs d).out = s.out := (rfl)
@[simp] theorem State.withDs_inbox (d : DState) : (s.withDs d).inbox = s.inbox := (rfl)
@[simp] theorem State.withDs_oracle (d : DState) : (s.withDs d).oracle = s.oracle := (rfl)
@[simp] theorem State.withDs_draws (d : DState) : (s.withDs d).draws = s.draws := (rfl)
@[simp] theorem State.withDs_inputs (d : DState) : (s.withDs d).inputs = s.inputs := (rfl)
@[simp] theorem State.withDs_turn (d : DState) : (s.withDs d).turn = s.turn := (rfl)
@[simp] theorem State.withDs_quantum (d : DState) : (s.withDs d).quantum = s.quantum := (rfl)

/-! ## `addFault` -/

@[simp] theorem State.addFault_params (f : ModelFault) : (s.addFault f).params = s.params := (rfl)
@[simp] theorem State.addFault_busLock (f : ModelFault) : (s.addFault f).busLock = s.busLock := (rfl)
@[simp] theorem State.addFault_scratch (f : ModelFault) : (s.addFault f).scratch = s.scratch := (rfl)
@[simp] theorem State.addFault_ch (f : ModelFault) : (s.addFault f).ch = s.ch := (rfl)
@[simp] theorem State.addFault_sigPending (f : ModelFault) : (s.addFault f).sigPending = s.sigPending := (rfl)
@[simp] theorem State.addFault_ds (f : ModelFault) : (s.addFault f).ds = s.ds := (rfl)
@[simp] theorem State.addFault_dlabWindow (f : ModelFault) : (s.addFault f).dlabWindow = s.dlabWindow := (rfl)
@[simp] theorem State.addFault_faults (f : ModelFault) : (s.addFault f).faults = if f ∈ s.faults then s.faults else s.faults ++ [f] := (rfl)
@[simp] theorem State.addFault_disp (f : ModelFault) : (s.addFault f).disp = s.disp := (rfl)
@[simp] theorem State.addFault_tasks (f : ModelFault) : (s.addFault f).tasks = s.tasks := (rfl)
@[simp] theorem State.addFault_attached (f : ModelFault) : (s.addFault f).attached = s.attached := (rfl)
@[simp] theorem State.addFault_out (f : ModelFault) : (s.addFault f).out = s.out := (rfl)
@[simp] theorem State.addFault_inbox (f : ModelFault) : (s.addFault f).inbox = s.inbox := (rfl)
@[simp] theorem State.addFault_oracle (f : ModelFault) : (s.addFault f).oracle = s.oracle := (rfl)
@[simp] theorem State.addFault_draws (f : ModelFault) : (s.addFault f).draws = s.draws := (rfl)
@[simp] theorem State.addFault_inputs (f : ModelFault) : (s.addFault f).inputs = s.inputs := (rfl)
@[simp] theorem State.addFault_turn (f : ModelFault) : (s.addFault f).turn = s.turn := (rfl)
@[simp] theorem State.addFault_quantum (f : ModelFault) : (s.addFault f).quantum = s.quantum := (rfl)

/-! ## `show` -/

@[simp] theorem State.show_params (l : List Obs) : (s.show l).params = s.params := (rfl)
@[simp] theorem State.show_busLock (l : List Obs) : (s.show l).busLock = s.busLock := (rfl)
@[simp] theorem State.show_scratch (l : List Obs) : (s.show l).scratch = s.scratch := (rfl)
@[simp] theorem State.show_ch (l : List Obs) : (s.show l).ch = s.ch := (rfl)
@[simp] theorem State.show_sigPending (l : List Obs) : (s.show l).sigPending = s.sigPending := (rfl)
@[simp] theorem State.show_ds (l : List Obs) : (s.show l).ds = s.ds := (rfl)
@[simp] theorem State.show_dlabWindow (l : List Obs) : (s.show l).dlabWindow = s.dlabWindow := (rfl)
@[simp] theorem State.show_faults (l : List Obs) : (s.show l).faults = s.faults := (rfl)
@[simp] theorem State.show_disp (l : List Obs) : (s.show l).disp = s.disp := (rfl)
@[simp] theorem State.show_tasks (l : List Obs) : (s.show l).tasks = s.tasks := (rfl)
@[simp] theorem State.show_attached (l : List Obs) : (s.show l).attached = s.attached := (rfl)
@[simp] theorem State.show_out (l : List Obs) : (s.show l).out = s.out ++ l := (rfl)
@[simp] theorem State.show_inbox (l : List Obs) : (s.show l).inbox = s.inbox := (rfl)
@[simp] theorem State.show_oracle (l : List Obs) : (s.show l).oracle = s.oracle := (rfl)
@[simp] theorem State.show_draws (l : List Obs) : (s.show l).draws = s.draws := (rfl)
@[simp] theorem State.show_inputs (l : List Obs) : (s.show l).inputs = s.inputs := (rfl)
@[simp] theorem State.show_turn (l : List Obs) : (s.show l).turn = s.turn := (rfl)
@[simp] theorem State.show_quantum (l : List Obs) : (s.show l).quantum = s.quantum := (rfl)

/-! ## `drawn` -/

@[simp] theorem State.drawn_params  : (s.drawn).params = s.params := (rfl)
@[simp] theorem State.drawn_busLock  : (s.drawn).busLock = s.busLock := (rfl)
@[simp] theorem State.drawn_scratch  : (s.drawn).scratch = s.scratch := (rfl)
@[simp] theorem State.drawn_ch  : (s.drawn).ch = s.ch := (rfl)
@[simp] theorem State.drawn_sigPending  : (s.drawn).sigPending = s.sigPending := (rfl)
@[simp] theorem State.drawn_ds  : (s.drawn).ds = s.ds := (rfl)
@[simp] theorem State.drawn_dlabWindow  : (s.drawn).dlabWindow = s.dlabWindow := (rfl)
@[simp] theorem State.drawn_faults  : (s.drawn).faults = s.faults := (rfl)
@[simp] theorem State.drawn_disp  : (s.drawn).disp = s.disp := (rfl)
@[simp] theorem State.drawn_tasks  : (s.drawn).tasks = s.tasks := (rfl)
@[simp] theorem State.drawn_attached  : (s.drawn).attached = s.attached := (rfl)
@[simp] theorem State.drawn_out  : (s.drawn).out = s.out := (rfl)
@[simp] theorem State.drawn_inbox  : (s.drawn).inbox = s.inbox := (rfl)
@[simp] theorem State.drawn_oracle  : (s.drawn).oracle = s.oracle.tail := (rfl)
@[simp] theorem State.drawn_draws  : (s.drawn).draws = s.draws + 1 := (rfl)
@[simp] theorem State.drawn_inputs  : (s.drawn).inputs = s.inputs := (rfl)
@[simp] theorem State.drawn_turn  : (s.drawn).turn = s.turn := (rfl)
@[simp] theorem State.drawn_quantum  : (s.drawn).quantum = s.quantum := (rfl)

/-! ## `received` -/

@[simp] theorem State.received_params (h : Agent) (k : BusKind) (c r n : Nat) : (s.received h k c r n).params = s.params := (rfl)
@[simp] theorem State.received_busLock (h : Agent) (k : BusKind) (c r n : Nat) : (s.received h k c r n).busLock = s.busLock := (rfl)
@[simp] theorem State.received_scratch (h : Agent) (k : BusKind) (c r n : Nat) : (s.received h k c r n).scratch = s.scratch := (rfl)
@[simp] theorem State.received_ch (h : Agent) (k : BusKind) (c r n : Nat) : (s.received h k c r n).ch = s.ch := (rfl)
@[simp] theorem State.received_sigPending (h : Agent) (k : BusKind) (c r n : Nat) : (s.received h k c r n).sigPending = s.sigPending := (rfl)
@[simp] theorem State.received_ds (h : Agent) (k : BusKind) (c r n : Nat) : (s.received h k c r n).ds = s.ds := (rfl)
@[simp] theorem State.received_dlabWindow (h : Agent) (k : BusKind) (c r n : Nat) : (s.received h k c r n).dlabWindow = s.dlabWindow := (rfl)
@[simp] theorem State.received_faults (h : Agent) (k : BusKind) (c r n : Nat) : (s.received h k c r n).faults = s.faults := (rfl)
@[simp] theorem State.received_disp (h : Agent) (k : BusKind) (c r n : Nat) : (s.received h k c r n).disp = s.disp := (rfl)
@[simp] theorem State.received_tasks (h : Agent) (k : BusKind) (c r n : Nat) : (s.received h k c r n).tasks = s.tasks := (rfl)
@[simp] theorem State.received_attached (h : Agent) (k : BusKind) (c r n : Nat) : (s.received h k c r n).attached = s.attached := (rfl)
@[simp] theorem State.received_out (h : Agent) (k : BusKind) (c r n : Nat) : (s.received h k c r n).out = s.out ++ txnObs h k c r (readCmd c r) (s.drawBytes n) s.drawOk := (rfl)
@[simp] theorem State.received_inbox (h : Agent) (k : BusKind) (c r n : Nat) : (s.received h k c r n).inbox = s.inbox := (rfl)
@[simp] theorem State.received_oracle (h : Agent) (k : BusKind) (c r n : Nat) : (s.received h k c r n).oracle = s.oracle.tail := (rfl)
@[simp] theorem State.received_draws (h : Agent) (k : BusKind) (c r n : Nat) : (s.received h k c r n).draws = s.draws + 1 := (rfl)
@[simp] theorem State.received_inputs (h : Agent) (k : BusKind) (c r n : Nat) : (s.received h k c r n).inputs = s.inputs := (rfl)
@[simp] theorem State.received_turn (h : Agent) (k : BusKind) (c r n : Nat) : (s.received h k c r n).turn = s.turn := (rfl)
@[simp] theorem State.received_quantum (h : Agent) (k : BusKind) (c r n : Nat) : (s.received h k c r n).quantum = s.quantum := (rfl)

/-! ## `sent` -/

@[simp] theorem State.sent_params (h : Agent) (k : BusKind) (c r : Nat) (data : List Byte) : (s.sent h k c r data).params = s.params := (rfl)
@[simp] theorem State.sent_busLock (h : Agent) (k : BusKind) (c r : Nat) (data : List Byte) : (s.sent h k c r data).busLock = s.busLock := (rfl)
@[simp] theorem State.sent_scratch (h : Agent) (k : BusKind) (c r : Nat) (data : List Byte) : (s.sent h k c r data).scratch = s.scratch := (rfl)
@[simp] theorem State.sent_ch (h : Agent) (k : BusKind) (c r : Nat) (data : List Byte) : (s.sent h k c r data).ch = s.ch := (rfl)
@[simp] theorem State.sent_sigPending (h : Agent) (k : BusKind) (c r : Nat) (data : List Byte) : (s.sent h k c r data).sigPending = s.sigPending := (rfl)
@[simp] theorem State.sent_ds (h : Agent) (k : BusKind) (c r : Nat) (data : List Byte) : (s.sent h k c r data).ds = s.ds := (rfl)
@[simp] theorem State.sent_dlabWindow (h : Agent) (k : BusKind) (c r : Nat) (data : List Byte) : (s.sent h k c r data).dlabWindow = s.dlabWindow := (rfl)
@[simp] theorem State.sent_faults (h : Agent) (k : BusKind) (c r : Nat) (data : List Byte) : (s.sent h k c r data).faults = s.faults := (rfl)
@[simp] theorem State.sent_disp (h : Agent) (k : BusKind) (c r : Nat) (data : List Byte) : (s.sent h k c r data).disp = s.disp := (rfl)
@[simp] theorem State.sent_tasks (h : Agent) (k : BusKind) (c r : Nat) (data : List Byte) : (s.sent h k c r data).tasks = s.tasks := (rfl)
@[simp] theorem State.sent_attached (h : Agent) (k : BusKind) (c r : Nat) (data : List Byte) : (s.sent h k c r data).attached = s.attached := (rfl)
@[simp] theorem State.sent_out (h : Agent) (k : BusKind) (c r : Nat) (data : List Byte) : (s.sent h k c r data).out = s.out ++ txnObs h k c r (writeCmd c r) data s.drawOk := (rfl)
@[simp] theorem State.sent_inbox (h : Agent) (k : BusKind) (c r : Nat) (data : List Byte) : (s.sent h k c r data).inbox = s.inbox := (rfl)
@[simp] theorem State.sent_oracle (h : Agent) (k : BusKind) (c r : Nat) (data : List Byte) : (s.sent h k c r data).oracle = s.oracle.tail := (rfl)
@[simp] theorem State.sent_draws (h : Agent) (k : BusKind) (c r : Nat) (data : List Byte) : (s.sent h k c r data).draws = s.draws + 1 := (rfl)
@[simp] theorem State.sent_inputs (h : Agent) (k : BusKind) (c r : Nat) (data : List Byte) : (s.sent h k c r data).inputs = s.inputs := (rfl)
@[simp] theorem State.sent_turn (h : Agent) (k : BusKind) (c r : Nat) (data : List Byte) : (s.sent h k c r data).turn = s.turn := (rfl)
@[simp] theorem State.sent_quantum (h : Agent) (k : BusKind) (c r : Nat) (data : List Byte) : (s.sent h k c r data).quantum = s.quantum := (rfl)

/-! ## `setChan` -/

@[simp] theorem State.setChan_params (c : Nat) (x : Chan) : (s.setChan c x).params = s.params := (rfl)
@[simp] theorem State.setChan_busLock (c : Nat) (x : Chan) : (s.setChan c x).busLock = s.busLock := (rfl)
@[simp] theorem State.setChan_scratch (c : Nat) (x : Chan) : (s.setChan c x).scratch = s.scratch := (rfl)
@[simp] theorem State.setChan_ch (c : Nat) (x : Chan) : (s.setChan c x).ch = s.ch.set c x := (rfl)
@[simp] theorem State.setChan_sigPending (c : Nat) (x : Chan) : (s.setChan c x).sigPending = s.sigPending := (rfl)
@[simp] theorem State.setChan_ds (c : Nat) (x : Chan) : (s.setChan c x).ds = s.ds := (rfl)
@[simp] theorem State.setChan_dlabWindow (c : Nat) (x : Chan) : (s.setChan c x).dlabWindow = s.dlabWindow := (rfl)
@[simp] theorem State.setChan_faults (c : Nat) (x : Chan) : (s.setChan c x).faults = s.faults := (rfl)
@[simp] theorem State.setChan_disp (c : Nat) (x : Chan) : (s.setChan c x).disp = s.disp := (rfl)
@[simp] theorem State.setChan_tasks (c : Nat) (x : Chan) : (s.setChan c x).tasks = s.tasks := (rfl)
@[simp] theorem State.setChan_attached (c : Nat) (x : Chan) : (s.setChan c x).attached = s.attached := (rfl)
@[simp] theorem State.setChan_out (c : Nat) (x : Chan) : (s.setChan c x).out = s.out := (rfl)
@[simp] theorem State.setChan_inbox (c : Nat) (x : Chan) : (s.setChan c x).inbox = s.inbox := (rfl)
@[simp] theorem State.setChan_oracle (c : Nat) (x : Chan) : (s.setChan c x).oracle = s.oracle := (rfl)
@[simp] theorem State.setChan_draws (c : Nat) (x : Chan) : (s.setChan c x).draws = s.draws := (rfl)
@[simp] theorem State.setChan_inputs (c : Nat) (x : Chan) : (s.setChan c x).inputs = s.inputs := (rfl)
@[simp] theorem State.setChan_turn (c : Nat) (x : Chan) : (s.setChan c x).turn = s.turn := (rfl)
@[simp] theorem State.setChan_quantum (c : Nat) (x : Chan) : (s.setChan c x).quantum = s.quantum := (rfl)

/-! ## `dropTasks` -/

@[simp] theorem State.dropTasks_params (c : Nat) : (s.dropTasks c).params = s.params := (rfl)
@[simp] theorem State.dropTasks_busLock (c : Nat) : (s.dropTasks c).busLock = s.busLock := (rfl)
@[simp] theorem State.dropTasks_scratch (c : Nat) : (s.dropTasks c).scratch = s.scratch := (rfl)
@[simp] theorem State.dropTasks_ch (c : Nat) : (s.dropTasks c).ch = s.ch := (rfl)
@[simp] theorem State.dropTasks_sigPending (c : Nat) : (s.dropTasks c).sigPending = s.sigPending := (rfl)
@[simp] theorem State.dropTasks_ds (c : Nat) : (s.dropTasks c).ds = s.ds := (rfl)
@[simp] theorem State.dropTasks_dlabWindow (c : Nat) : (s.dropTasks c).dlabWindow = s.dlabWindow := (rfl)
@[simp] theorem State.dropTasks_faults (c : Nat) : (s.dropTasks c).faults = s.faults := (rfl)
@[simp] theorem State.dropTasks_disp (c : Nat) : (s.dropTasks c).disp = s.disp := (rfl)
@[simp] theorem State.dropTasks_tasks (c : Nat) : (s.dropTasks c).tasks = s.tasks.set c (s.chanAgents c).dropTasks := (rfl)
@[simp] theorem State.dropTasks_attached (c : Nat) : (s.dropTasks c).attached = s.attached := (rfl)
@[simp] theorem State.dropTasks_out (c : Nat) : (s.dropTasks c).out = s.out := (rfl)
@[simp] theorem State.dropTasks_inbox (c : Nat) : (s.dropTasks c).inbox = s.inbox := (rfl)
@[simp] theorem State.dropTasks_oracle (c : Nat) : (s.dropTasks c).oracle = s.oracle := (rfl)
@[simp] theorem State.dropTasks_draws (c : Nat) : (s.dropTasks c).draws = s.draws := (rfl)
@[simp] theorem State.dropTasks_inputs (c : Nat) : (s.dropTasks c).inputs = s.inputs := (rfl)
@[simp] theorem State.dropTasks_turn (c : Nat) : (s.dropTasks c).turn = s.turn := (rfl)
@[simp] theorem State.dropTasks_quantum (c : Nat) : (s.dropTasks c).quantum = s.quantum := (rfl)

/-! ## `setAgent` -/

@[simp] theorem State.setAgent_params (g : Agent) (a : AgentCtl) : (s.setAgent g a).params = s.params := by cases g <;> rfl
@[simp] theorem State.setAgent_busLock (g : Agent) (a : AgentCtl) : (s.setAgent g a).busLock = s.busLock := by cases g <;> rfl
@[simp] theorem State.setAgent_scratch (g : Agent) (a : AgentCtl) : (s.setAgent g a).scratch = s.scratch := by cases g <;> rfl
@[simp] theorem State.setAgent_ch (g : Agent) (a : AgentCtl) : (s.setAgent g a).ch = s.ch := by cases g <;> rfl
@[simp] theorem State.setAgent_sigPending (g : Agent) (a : AgentCtl) : (s.setAgent g a).sigPending = s.sigPending := by cases g <;> rfl
@[simp] theorem State.setAgent_ds (g : Agent) (a : AgentCtl) : (s.setAgent g a).ds = s.ds := by cases g <;> rfl
@[simp] theorem State.setAgent_dlabWindow (g : Agent) (a : AgentCtl) : (s.setAgent g a).dlabWindow = s.dlabWindow := by cases g <;> rfl
@[simp] theorem State.setAgent_faults (g : Agent) (a : AgentCtl) : (s.setAgent g a).faults = s.faults := by cases g <;> rfl
@[simp] theorem State.setAgent_attached (g : Agent) (a : AgentCtl) : (s.setAgent g a).attached = s.attached := by cases g <;> rfl
@[simp] theorem State.setAgent_out (g : Agent) (a : AgentCtl) : (s.setAgent g a).out = s.out := by cases g <;> rfl
@[simp] theorem State.setAgent_inbox (g : Agent) (a : AgentCtl) : (s.setAgent g a).inbox = s.inbox := by cases g <;> rfl
@[simp] theorem State.setAgent_oracle (g : Agent) (a : AgentCtl) : (s.setAgent g a).oracle = s.oracle := by cases g <;> rfl
@[simp] theorem State.setAgent_draws (g : Agent) (a : AgentCtl) : (s.setAgent g a).draws = s.draws := by cases g <;> rfl
@[simp] theorem State.setAgent_inputs (g : Agent) (a : AgentCtl) : (s.setAgent g a).inputs = s.inputs := by cases g <;> rfl
@[simp] theorem State.setAgent_turn (g : Agent) (a : AgentCtl) : (s.setAgent g a).turn = s.turn := by cases g <;> rfl
@[simp] theorem State.setAgent_quantum (g : Agent) (a : AgentCtl) : (s.setAgent g a).quantum = s.quantum := by cases g <;> rfl

/-! ## `takeInput` -/

@[simp] theorem State.takeInput_params  : (s.takeInput).params = s.params := (rfl)
@[simp] theorem State.takeInput_busLock  : (s.takeInput).busLock = s.busLock := (rfl)
@[simp] theorem State.takeInput_scratch  : (s.takeInput).scratch = s.scratch := (rfl)
@[simp] theorem State.takeInput_ch  : (s.takeInput).ch = s.ch := (rfl)
@[simp] theorem State.takeInput_sigPending  : (s.takeInput).sigPending = s.sigPending := (rfl)
@[simp] theorem State.takeInput_ds  : (s.takeInput).ds = s.ds := (rfl)
@[simp] theorem State.takeInput_dlabWindow  : (s.takeInput).dlabWindow = s.dlabWindow := (rfl)
@[simp] theorem State.takeInput_faults  : (s.takeInput).faults = s.faults := (rfl)
@[simp] theorem State.takeInput_disp  : (s.takeInput).disp = s.disp := (rfl)
@[simp] theorem State.takeInput_tasks  : (s.takeInput).tasks = s.tasks := (rfl)
@[simp] theorem State.takeInput_attached  : (s.takeInput).attached = s.attached := (rfl)
@[simp] theorem State.takeInput_out  : (s.takeInput).out = s.out := (rfl)
@[simp] theorem State.takeInput_inbox  : (s.takeInput).inbox = s.inbox.tail := (rfl)
@[simp] theorem State.takeInput_oracle  : (s.takeInput).oracle = s.oracle := (rfl)
@[simp] theorem State.takeInput_draws  : (s.takeInput).draws = s.draws := (rfl)
@[simp] theorem State.takeInput_inputs  : (s.takeInput).inputs = s.inputs + 1 := (rfl)
@[simp] theorem State.takeInput_turn  : (s.takeInput).turn = s.nextInput.turn := (rfl)
@[simp] theorem State.takeInput_quantum  : (s.takeInput).quantum = s.nextInput.quantum := (rfl)

/-! ## `passStart` -/

@[simp] theorem State.passStart_params  : (s.passStart).params = s.params := (rfl)
@[simp] theorem State.passStart_busLock  : (s.passStart).busLock = s.busLock := (rfl)
@[simp] theorem State.passStart_scratch  : (s.passStart).scratch = s.scratch := (rfl)
@[simp] theorem State.passStart_ch  : (s.passStart).ch = s.ch := (rfl)
@[simp] theorem State.passStart_sigPending  : (s.passStart).sigPending = false := (rfl)
@[simp] theorem State.passStart_ds  : (s.passStart).ds = .pollLsr 0 := (rfl)
@[simp] theorem State.passStart_dlabWindow  : (s.passStart).dlabWindow = s.dlabWindow := (rfl)
@[simp] theorem State.passStart_faults  : (s.passStart).faults = s.faults := (rfl)
@[simp] theorem State.passStart_disp  : (s.passStart).disp = s.disp := (rfl)
@[simp] theorem State.passStart_tasks  : (s.passStart).tasks = s.tasks := (rfl)
@[simp] theorem State.passStart_attached  : (s.passStart).attached = s.attached := (rfl)
@[simp] theorem State.passStart_out  : (s.passStart).out = s.out := (rfl)
@[simp] theorem State.passStart_inbox  : (s.passStart).inbox = s.inbox := (rfl)
@[simp] theorem State.passStart_oracle  : (s.passStart).oracle = s.oracle := (rfl)
@[simp] theorem State.passStart_draws  : (s.passStart).draws = s.draws := (rfl)
@[simp] theorem State.passStart_inputs  : (s.passStart).inputs = s.inputs := (rfl)
@[simp] theorem State.passStart_turn  : (s.passStart).turn = s.turn := (rfl)
@[simp] theorem State.passStart_quantum  : (s.passStart).quantum = s.quantum := (rfl)

/-! ## Agents and channels through the updates -/

@[simp] theorem State.withBus_agent (l : Lock) (g : Agent) : (s.withBus l).agent g = s.agent g := by cases g <;> rfl
@[simp] theorem State.withBus_hasAgent (l : Lock) (g : Agent) : (s.withBus l).hasAgent g = s.hasAgent g := by cases g <;> rfl
@[simp] theorem State.withWindow_agent (w : Option (Agent × Nat)) (g : Agent) : (s.withWindow w).agent g = s.agent g := by cases g <;> rfl
@[simp] theorem State.withWindow_hasAgent (w : Option (Agent × Nat)) (g : Agent) : (s.withWindow w).hasAgent g = s.hasAgent g := by cases g <;> rfl
@[simp] theorem State.withScratch_agent (l : List Byte) (g : Agent) : (s.withScratch l).agent g = s.agent g := by cases g <;> rfl
@[simp] theorem State.withScratch_hasAgent (l : List Byte) (g : Agent) : (s.withScratch l).hasAgent g = s.hasAgent g := by cases g <;> rfl
@[simp] theorem State.withDs_agent (d : DState) (g : Agent) : (s.withDs d).agent g = s.agent g := by cases g <;> rfl
@[simp] theorem State.withDs_hasAgent (d : DState) (g : Agent) : (s.withDs d).hasAgent g = s.hasAgent g := by cases g <;> rfl
@[simp] theorem State.addFault_agent (f : ModelFault) (g : Agent) : (s.addFault f).agent g = s.agent g := by cases g <;> rfl
@[simp] theorem State.addFault_hasAgent (f : ModelFault) (g : Agent) : (s.addFault f).hasAgent g = s.hasAgent g := by cases g <;> rfl
@[simp] theorem State.show_agent (l : List Obs) (g : Agent) : (s.show l).agent g = s.agent g := by cases g <;> rfl
@[simp] theorem State.show_hasAgent (l : List Obs) (g : Agent) : (s.show l).hasAgent g = s.hasAgent g := by cases g <;> rfl
@[simp] theorem State.drawn_agent  (g : Agent) : (s.drawn).agent g = s.agent g := by cases g <;> rfl
@[simp] theorem State.drawn_hasAgent  (g : Agent) : (s.drawn).hasAgent g = s.hasAgent g := by cases g <;> rfl
@[simp] theorem State.received_agent (h : Agent) (k : BusKind) (c r n : Nat) (g : Agent) : (s.received h k c r n).agent g = s.agent g := by cases g <;> rfl
@[simp] theorem State.received_hasAgent (h : Agent) (k : BusKind) (c r n : Nat) (g : Agent) : (s.received h k c r n).hasAgent g = s.hasAgent g := by cases g <;> rfl
@[simp] theorem State.sent_agent (h : Agent) (k : BusKind) (c r : Nat) (data : List Byte) (g : Agent) : (s.sent h k c r data).agent g = s.agent g := by cases g <;> rfl
@[simp] theorem State.sent_hasAgent (h : Agent) (k : BusKind) (c r : Nat) (data : List Byte) (g : Agent) : (s.sent h k c r data).hasAgent g = s.hasAgent g := by cases g <;> rfl
@[simp] theorem State.setChan_agent (c : Nat) (x : Chan) (g : Agent) : (s.setChan c x).agent g = s.agent g := by cases g <;> rfl
@[simp] theorem State.setChan_hasAgent (c : Nat) (x : Chan) (g : Agent) : (s.setChan c x).hasAgent g = s.hasAgent g := by cases g <;> rfl
@[simp] theorem State.takeInput_agent  (g : Agent) : (s.takeInput).agent g = s.agent g := by cases g <;> rfl
@[simp] theorem State.takeInput_hasAgent  (g : Agent) : (s.takeInput).hasAgent g = s.hasAgent g := by cases g <;> rfl
@[simp] theorem State.passStart_agent  (g : Agent) : (s.passStart).agent g = s.agent g := by cases g <;> rfl
@[simp] theorem State.passStart_hasAgent  (g : Agent) : (s.passStart).hasAgent g = s.hasAgent g := by cases g <;> rfl
@[simp] theorem State.withBus_chan (l : Lock) (c' : Nat) : (s.withBus l).chan c' = s.chan c' := (rfl)
@[simp] theorem State.withWindow_chan (w : Option (Agent × Nat)) (c' : Nat) : (s.withWindow w).chan c' = s.chan c' := (rfl)
@[simp] theorem State.withScratch_chan (l : List Byte) (c' : Nat) : (s.withScratch l).chan c' = s.chan c' := (rfl)
@[simp] theorem State.withDs_chan (d : DState) (c' : Nat) : (s.withDs d).chan c' = s.chan c' := (rfl)
@[simp] theorem State.addFault_chan (f : ModelFault) (c' : Nat) : (s.addFault f).chan c' = s.chan c' := (rfl)
@[simp] theorem State.show_chan (l : List Obs) (c' : Nat) : (s.show l).chan c' = s.chan c' := (rfl)
@[simp] theorem State.drawn_chan  (c' : Nat) : (s.drawn).chan c' = s.chan c' := (rfl)
@[simp] theorem State.received_chan (h : Agent) (k : BusKind) (c r n : Nat) (c' : Nat) : (s.received h k c r n).chan c' = s.chan c' := (rfl)
@[simp] theorem State.sent_chan (h : Agent) (k : BusKind) (c r : Nat) (data : List Byte) (c' : Nat) : (s.sent h k c r data).chan c' = s.chan c' := (rfl)
@[simp] theorem State.dropTasks_chan (c : Nat) (c' : Nat) : (s.dropTasks c).chan c' = s.chan c' := (rfl)
@[simp] theorem State.setAgent_chan (g : Agent) (a : AgentCtl) (c' : Nat) : (s.setAgent g a).chan c' = s.chan c' := by cases g <;> rfl
@[simp] theorem State.takeInput_chan  (c' : Nat) : (s.takeInput).chan c' = s.chan c' := (rfl)
@[simp] theorem State.passStart_chan  (c' : Nat) : (s.passStart).chan c' = s.chan c' := (rfl)
@[simp] theorem State.withBus_drawOk (l : Lock) : (s.withBus l).drawOk = s.drawOk := (rfl)
@[simp] theorem State.withBus_drawBytes (l : Lock) (n' : Nat) : (s.withBus l).drawBytes n' = s.drawBytes n' := (rfl)
@[simp] theorem State.withWindow_drawOk (w : Option (Agent × Nat)) : (s.withWindow w).drawOk = s.drawOk := (rfl)
@[simp] theorem State.withWindow_drawBytes (w : Option (Agent × Nat)) (n' : Nat) : (s.withWindow w).drawBytes n' = s.drawBytes n' := (rfl)
@[simp] theorem State.withScratch_drawOk (l : List Byte) : (s.withScratch l).drawOk = s.drawOk := (rfl)
@[simp] theorem State.withScratch_drawBytes (l : List Byte) (n' : Nat) : (s.withScratch l).drawBytes n' = s.drawBytes n' := (rfl)
@[simp] theorem State.withDs_drawOk (d : DState) : (s.withDs d).drawOk = s.drawOk := (rfl)
@[simp] theorem State.withDs_drawBytes (d : DState) (n' : Nat) : (s.withDs d).drawBytes n' = s.drawBytes n' := (rfl)
@[simp] theorem State.addFault_drawOk (f : ModelFault) : (s.addFault f).drawOk = s.drawOk := (rfl)
@[simp] theorem State.addFault_drawBytes (f : ModelFault) (n' : Nat) : (s.addFault f).drawBytes n' = s.drawBytes n' := (rfl)
@[simp] theorem State.setChan_drawOk (c : Nat) (x : Chan) : (s.setChan c x).drawOk = s.drawOk := (rfl)
@[simp] theorem State.setChan_drawBytes (c : Nat) (x : Chan) (n' : Nat) : (s.setChan c x).drawBytes n' = s.drawBytes n' := (rfl)
@[simp] theorem State.dropTasks_drawOk (c : Nat) : (s.dropTasks c).drawOk = s.drawOk := (rfl)
@[simp] theorem State.dropTasks_drawBytes (c : Nat) (n' : Nat) : (s.dropTasks c).drawBytes n' = s.drawBytes n' := (rfl)
@[simp] theorem State.setAgent_drawOk (g : Agent) (a : AgentCtl) : (s.setAgent g a).drawOk = s.drawOk := by cases g <;> rfl
@[simp] theorem State.setAgent_drawBytes (g : Agent) (a : AgentCtl) (n' : Nat) : (s.setAgent g a).drawBytes n' = s.drawBytes n' := by cases g <;> rfl
@[simp] theorem State.passStart_drawOk  : (s.passStart).drawOk = s.drawOk := (rfl)
@[simp] theorem State.passStart_drawBytes  (n' : Nat) : (s.passStart).drawBytes n' = s.drawBytes n' := (rfl)

@[simp] theorem State.setAgent_hasAgent (g : Agent) (a : AgentCtl) (h : Agent) :
    (s.setAgent g a).hasAgent h = s.hasAgent h := by
  cases g <;> cases h <;> first | rfl | simp [State.setAgent, State.hasAgent]

/-- The list read after a write: the written place, or the old one. -/
theorem getD_set_eq (l : List ChanAgents) (c d : Nat) (x e : ChanAgents) :
    (l.set c x).getD d e = if c = d ∧ c < l.length then x else l.getD d e := by
  simp only [List.getD_eq_getElem?_getD, List.getElem?_set]
  by_cases h : c = d
  · subst h
    by_cases hc : c < l.length <;> simp [hc]
  · simp [h]

/-- An agent that exists reads as it was last written. -/
@[simp] theorem State.setAgent_agent_self (g : Agent) (a : AgentCtl) (hg : s.hasAgent g = true) :
    (s.setAgent g a).agent g = a := by
  cases g <;> first | rfl | (simp only [State.hasAgent, decide_eq_true_eq] at hg
                             simp [State.setAgent, State.agent, State.chanAgents, hg])

/-- Writing one agent leaves every other agent as it was. -/
theorem State.setAgent_agent_ne (g h : Agent) (a : AgentCtl) (hne : h ≠ g) : (s.setAgent g a).agent h = s.agent h := by
  cases g <;> cases h <;>
    first
    | rfl
    | exact absurd rfl hne
    | (simp only [State.setAgent, State.agent, State.chanAgents, getD_set_eq]
       split <;> simp_all)

/-- Of two writes of one agent the later stands. -/
@[simp] theorem State.setAgent_setAgent (g : Agent) (a b : AgentCtl) :
    (s.setAgent g a).setAgent g b = s.setAgent g b := by
  cases g <;> first | rfl | (rename_i c
                             simp only [State.setAgent, State.chanAgents, getD_set_eq, List.set_set]
                             by_cases hc : c < s.tasks.length
                             · simp [hc]
                             · simp [List.set_eq_of_length_le (Nat.le_of_not_lt hc)])

/-- Writing an agent's own control state back changes nothing. -/
@[simp] theorem State.setAgent_self (g : Agent) : s.setAgent g (s.agent g) = s := by
  cases g <;> first | rfl | (rename_i c
                             simp only [State.setAgent, State.agent, State.chanAgents]
                             by_cases hc : c < s.tasks.length
                             · have h : s.tasks.set c (s.tasks.getD c {}) = s.tasks := by simp [hc]
                               exact congrArg (fun l => { s with tasks := l }) h
                             · simp [List.set_eq_of_length_le (Nat.le_of_not_lt hc)])

/-- A channel that exists reads as it was last written. -/
@[simp] theorem State.setChan_chan_self (c : Nat) (x : Chan) (hc : c < s.ch.length) : (s.setChan c x).chan c = x := by
  simp [State.setChan, State.chan, List.getD_eq_getElem?_getD, hc]

/-- Writing one channel leaves every other channel as it was. -/
theorem State.setChan_chan_ne (c d : Nat) (x : Chan) (h : d ≠ c) : (s.setChan c x).chan d = s.chan d := by
  simp [State.setChan, State.chan, List.getD_eq_getElem?_getD, Ne.symm h]

@[simp] theorem State.setChan_setChan (c : Nat) (x y : Chan) : (s.setChan c x).setChan c y = s.setChan c y := by
  simp [State.setChan]

@[simp] theorem State.setChan_self (c : Nat) : s.setChan c (s.chan c) = s := by
  simp only [State.setChan, State.chan, List.getD_eq_getElem?_getD]
  by_cases hc : c < s.ch.length <;> simp_all [List.set_eq_of_length_le]

@[simp] theorem State.show_nil : s.show [] = s := by simp [State.show]

@[simp] theorem State.show_show (a b : List Obs) : (s.show a).show b = s.show (a ++ b) := by simp [State.show]

@[simp] theorem State.withBus_self (l : Lock) (h : s.busLock = l) : s.withBus l = s := by subst h; rfl

@[simp] theorem State.withWindow_self (w : Option (Agent × Nat)) (h : s.dlabWindow = w) : s.withWindow w = s := by
  subst h; rfl

@[simp] theorem State.withDs_self (d : DState) (h : s.ds = d) : s.withDs d = s := by subst h; rfl

/-! ## The order of the updates -/

@[simp] theorem State.withBus_show (l : List Obs) (l' : Lock) :
    (s.withBus l').show l = (s.show l).withBus l' := (rfl)
@[simp] theorem State.withWindow_show (l : List Obs) (w' : Option (Agent × Nat)) :
    (s.withWindow w').show l = (s.show l).withWindow w' := (rfl)
@[simp] theorem State.withScratch_show (l : List Obs) (l' : List Byte) :
    (s.withScratch l').show l = (s.show l).withScratch l' := (rfl)
@[simp] theorem State.withDs_show (l : List Obs) (d' : DState) :
    (s.withDs d').show l = (s.show l).withDs d' := (rfl)
@[simp] theorem State.addFault_show (l : List Obs) (f' : ModelFault) :
    (s.addFault f').show l = (s.show l).addFault f' := (rfl)
@[simp] theorem State.setChan_show (l : List Obs) (c' : Nat) (x' : Chan) :
    (s.setChan c' x').show l = (s.show l).setChan c' x' := (rfl)
@[simp] theorem State.setAgent_show (l : List Obs) (g' : Agent) (a' : AgentCtl) :
    (s.setAgent g' a').show l = (s.show l).setAgent g' a' := by cases g' <;> rfl
@[simp] theorem State.withBus_drawn  (l' : Lock) :
    (s.withBus l').drawn = (s.drawn).withBus l' := (rfl)
@[simp] theorem State.withWindow_drawn  (w' : Option (Agent × Nat)) :
    (s.withWindow w').drawn = (s.drawn).withWindow w' := (rfl)
@[simp] theorem State.withScratch_drawn  (l' : List Byte) :
    (s.withScratch l').drawn = (s.drawn).withScratch l' := (rfl)
@[simp] theorem State.withDs_drawn  (d' : DState) :
    (s.withDs d').drawn = (s.drawn).withDs d' := (rfl)
@[simp] theorem State.addFault_drawn  (f' : ModelFault) :
    (s.addFault f').drawn = (s.drawn).addFault f' := (rfl)
@[simp] theorem State.setChan_drawn  (c' : Nat) (x' : Chan) :
    (s.setChan c' x').drawn = (s.drawn).setChan c' x' := (rfl)
@[simp] theorem State.setAgent_drawn  (g' : Agent) (a' : AgentCtl) :
    (s.setAgent g' a').drawn = (s.drawn).setAgent g' a' := by cases g' <;> rfl
@[simp] theorem State.withBus_received (h : Agent) (k : BusKind) (c r n : Nat) (l' : Lock) :
    (s.withBus l').received h k c r n = (s.received h k c r n).withBus l' := (rfl)
@[simp] theorem State.withWindow_received (h : Agent) (k : BusKind) (c r n : Nat) (w' : Option (Agent × Nat)) :
    (s.withWindow w').received h k c r n = (s.received h k c r n).withWindow w' := (rfl)
@[simp] theorem State.withScratch_received (h : Agent) (k : BusKind) (c r n : Nat) (l' : List Byte) :
    (s.withScratch l').received h k c r n = (s.received h k c r n).withScratch l' := (rfl)
@[simp] theorem State.withDs_received (h : Agent) (k : BusKind) (c r n : Nat) (d' : DState) :
    (s.withDs d').received h k c r n = (s.received h k c r n).withDs d' := (rfl)
@[simp] theorem State.addFault_received (h : Agent) (k : BusKind) (c r n : Nat) (f' : ModelFault) :
    (s.addFault f').received h k c r n = (s.received h k c r n).addFault f' := (rfl)
@[simp] theorem State.setChan_received (h : Agent) (k : BusKind) (c r n : Nat) (c' : Nat) (x' : Chan) :
    (s.setChan c' x').received h k c r n = (s.received h k c r n).setChan c' x' := (rfl)
@[simp] theorem State.setAgent_received (h : Agent) (k : BusKind) (c r n : Nat) (g' : Agent) (a' : AgentCtl) :
    (s.setAgent g' a').received h k c r n = (s.received h k c r n).setAgent g' a' := by cases g' <;> rfl
@[simp] theorem State.withBus_sent (h : Agent) (k : BusKind) (c r : Nat) (data : List Byte) (l' : Lock) :
    (s.withBus l').sent h k c r data = (s.sent h k c r data).withBus l' := (rfl)
@[simp] theorem State.withWindow_sent (h : Agent) (k : BusKind) (c r : Nat) (data : List Byte) (w' : Option (Agent × Nat)) :
    (s.withWindow w').sent h k c r data = (s.sent h k c r data).withWindow w' := (rfl)
@[simp] theorem State.withScratch_sent (h : Agent) (k : BusKind) (c r : Nat) (data : List Byte) (l' : List Byte) :
    (s.withScratch l').sent h k c r data = (s.sent h k c r data).withScratch l' := (rfl)
@[simp] theorem State.withDs_sent (h : Agent) (k : BusKind) (c r : Nat) (data : List Byte) (d' : DState) :
    (s.withDs d').sent h k c r data = (s.sent h k c r data).withDs d' := (rfl)
@[simp] theorem State.addFault_sent (h : Agent) (k : BusKind) (c r : Nat) (data : List Byte) (f' : ModelFault) :
    (s.addFault f').sent h k c r data = (s.sent h k c r data).addFault f' := (rfl)
@[simp] theorem State.setChan_sent (h : Agent) (k : BusKind) (c r : Nat) (data : List Byte) (c' : Nat) (x' : Chan) :
    (s.setChan c' x').sent h k c r data = (s.sent h k c r data).setChan c' x' := (rfl)
@[simp] theorem State.setAgent_sent (h : Agent) (k : BusKind) (c r : Nat) (data : List Byte) (g' : Agent) (a' : AgentCtl) :
    (s.setAgent g' a').sent h k c r data = (s.sent h k c r data).setAgent g' a' := by cases g' <;> rfl
@[simp] theorem State.withWindow_withBus (l : Lock) (w' : Option (Agent × Nat)) :
    (s.withWindow w').withBus l = (s.withBus l).withWindow w' := (rfl)
@[simp] theorem State.withScratch_withBus (l : Lock) (l' : List Byte) :
    (s.withScratch l').withBus l = (s.withBus l).withScratch l' := (rfl)
@[simp] theorem State.withDs_withBus (l : Lock) (d' : DState) :
    (s.withDs d').withBus l = (s.withBus l).withDs d' := (rfl)
@[simp] theorem State.addFault_withBus (l : Lock) (f' : ModelFault) :
    (s.addFault f').withBus l = (s.withBus l).addFault f' := (rfl)
@[simp] theorem State.setChan_withBus (l : Lock) (c' : Nat) (x' : Chan) :
    (s.setChan c' x').withBus l = (s.withBus l).setChan c' x' := (rfl)
@[simp] theorem State.setAgent_withBus (l : Lock) (g' : Agent) (a' : AgentCtl) :
    (s.setAgent g' a').withBus l = (s.withBus l).setAgent g' a' := by cases g' <;> rfl
@[simp] theorem State.withScratch_withWindow (w : Option (Agent × Nat)) (l' : List Byte) :
    (s.withScratch l').withWindow w = (s.withWindow w).withScratch l' := (rfl)
@[simp] theorem State.withDs_withWindow (w : Option (Agent × Nat)) (d' : DState) :
    (s.withDs d').withWindow w = (s.withWindow w).withDs d' := (rfl)
@[simp] theorem State.addFault_withWindow (w : Option (Agent × Nat)) (f' : ModelFault) :
    (s.addFault f').withWindow w = (s.withWindow w).addFault f' := (rfl)
@[simp] theorem State.setChan_withWindow (w : Option (Agent × Nat)) (c' : Nat) (x' : Chan) :
    (s.setChan c' x').withWindow w = (s.withWindow w).setChan c' x' := (rfl)
@[simp] theorem State.setAgent_withWindow (w : Option (Agent × Nat)) (g' : Agent) (a' : AgentCtl) :
    (s.setAgent g' a').withWindow w = (s.withWindow w).setAgent g' a' := by cases g' <;> rfl
@[simp] theorem State.withDs_withScratch (l : List Byte) (d' : DState) :
    (s.withDs d').withScratch l = (s.withScratch l).withDs d' := (rfl)
@[simp] theorem State.addFault_withScratch (l : List Byte) (f' : ModelFault) :
    (s.addFault f').withScratch l = (s.withScratch l).addFault f' := (rfl)
@[simp] theorem State.setChan_withScratch (l : List Byte) (c' : Nat) (x' : Chan) :
    (s.setChan c' x').withScratch l = (s.withScratch l).setChan c' x' := (rfl)
@[simp] theorem State.setAgent_withScratch (l : List Byte) (g' : Agent) (a' : AgentCtl) :
    (s.setAgent g' a').withScratch l = (s.withScratch l).setAgent g' a' := by cases g' <;> rfl
@[simp] theorem State.addFault_withDs (d : DState) (f' : ModelFault) :
    (s.addFault f').withDs d = (s.withDs d).addFault f' := (rfl)
@[simp] theorem State.setChan_withDs (d : DState) (c' : Nat) (x' : Chan) :
    (s.setChan c' x').withDs d = (s.withDs d).setChan c' x' := (rfl)
@[simp] theorem State.setAgent_withDs (d : DState) (g' : Agent) (a' : AgentCtl) :
    (s.setAgent g' a').withDs d = (s.withDs d).setAgent g' a' := by cases g' <;> rfl
@[simp] theorem State.setChan_addFault (f : ModelFault) (c' : Nat) (x' : Chan) :
    (s.setChan c' x').addFault f = (s.addFault f).setChan c' x' := (rfl)
@[simp] theorem State.setAgent_addFault (f : ModelFault) (g' : Agent) (a' : AgentCtl) :
    (s.setAgent g' a').addFault f = (s.addFault f).setAgent g' a' := by cases g' <;> rfl
@[simp] theorem State.setAgent_setChan (c : Nat) (x : Chan) (g' : Agent) (a' : AgentCtl) :
    (s.setAgent g' a').setChan c x = (s.setChan c x).setAgent g' a' := by cases g' <;> rfl
@[simp] theorem State.withBus_withBus (l : Lock) (l' : Lock) : (s.withBus l').withBus l = s.withBus l := (rfl)
@[simp] theorem State.withWindow_withWindow (w : Option (Agent × Nat)) (w' : Option (Agent × Nat)) : (s.withWindow w').withWindow w = s.withWindow w := (rfl)
@[simp] theorem State.withScratch_withScratch (l : List Byte) (l' : List Byte) : (s.withScratch l').withScratch l = s.withScratch l := (rfl)
@[simp] theorem State.withDs_withDs (d : DState) (d' : DState) : (s.withDs d').withDs d = s.withDs d := (rfl)

end Sys2Proof.Machine
end

