-- ==== Sys2Proof/Laws/Run.lean ====
section
/-! SUPPORT. What running an agent does: one lemma per statement run, and one per bus operation run to its end. -/

namespace Sys2Proof.Machine

@[simp] theorem State.goOn_eq (s : State) (g : Agent) (code : List Stmt) :
    s.goOn g code = s.setAgent g { s.agent g with code := code } := rfl

@[simp] theorem State.goDs_eq (s : State) (g : Agent) (d : DState) (rest : List Stmt) :
    s.goDs g d rest = (s.withDs d).setAgent g { s.agent g with code := rest } := by simp [State.goDs]

/-- A run stops where its condition fails. -/
theorem runWhile_stop {p : State → Bool} {n : Nat} {g : Agent} {s : State} (h : p s = false) :
    State.runWhile p n g s = s := by
  cases n <;> simp [State.runWhile, h]

/-- A run goes on for one step of its agent. -/
theorem runWhile_next {p : State → Bool} {n : Nat} {g : Agent} {s : State} (h : p s = true) :
    State.runWhile p (n + 1) g s = State.runWhile p n g (s.agentStep g) := by
  simp [State.runWhile, h]

/-- An agent that may step runs its next statement. -/
theorem agentStep_stmt {g : Agent} {s : State} {m : Stmt} {rest : List Stmt} (hc : s.canStep g = true)
    (hn : s.nextCode g = m :: rest) : s.agentStep g = s.doStmt g m rest := by
  simp [State.agentStep, hc, hn]

/-- An agent with code takes its next statement from it. -/
@[simp] theorem nextCode_setAgent {g : Agent} {s : State} {a : AgentCtl} {m : Stmt} {rest : List Stmt}
    (hg : s.hasAgent g = true) (ha : a.code = m :: rest) : (s.setAgent g a).nextCode g = m :: rest := by
  simp [State.nextCode, hg, ha]

@[simp] theorem canStep_setAgent {g : Agent} {s : State} {a : AgentCtl} (hg : s.hasAgent g = true) :
    (s.setAgent g a).canStep g = (!a.stopped && (s.attached || g == .config 0)) := by
  simp [State.canStep, hg]

@[simp] theorem hasCode_setAgent {g : Agent} {s : State} {a : AgentCtl} (hg : s.hasAgent g = true) :
    State.hasCode g (s.setAgent g a) = !a.code.isEmpty := by
  simp [State.hasCode, hg]

@[simp] theorem readByte_setAgent {g : Agent} {s : State} {a : AgentCtl} (hg : s.hasAgent g = true) :
    (s.setAgent g a).readByte g = a.acc.headD 0#8 := by
  simp [State.readByte, hg]

@[simp] theorem hazard_setAgent (s : State) (g h : Agent) (a : AgentCtl) (c : Nat) (cmd : Byte) :
    (s.setAgent g a).hazard h c cmd = s.hazard h c cmd := by
  simp [State.hazard, State.dlabBroken, State.shutBroken]

@[simp] theorem hazard_withBus (s : State) (l : Lock) (h : Agent) (c : Nat) (cmd : Byte) :
    (s.withBus l).hazard h c cmd = s.hazard h c cmd := by
  simp [State.hazard, State.dlabBroken, State.shutBroken]

@[simp] theorem hazard_received (s : State) (g h : Agent) (k : BusKind) (c r n c' : Nat) (cmd : Byte) :
    (s.received g k c r n).hazard h c' cmd = s.hazard h c' cmd := by
  simp [State.hazard, State.dlabBroken, State.shutBroken]

@[simp] theorem hazard_sent (s : State) (g h : Agent) (k : BusKind) (c r c' : Nat) (data : List Byte) (cmd : Byte) :
    (s.sent g k c r data).hazard h c' cmd = s.hazard h c' cmd := by
  simp [State.hazard, State.dlabBroken, State.shutBroken]

@[simp] theorem hazard_show (s : State) (l : List Obs) (h : Agent) (c : Nat) (cmd : Byte) :
    (s.show l).hazard h c cmd = s.hazard h c cmd := by
  simp [State.hazard, State.dlabBroken, State.shutBroken]

@[simp] theorem hazard_withDs (s : State) (d : DState) (h : Agent) (c : Nat) (cmd : Byte) :
    (s.withDs d).hazard h c cmd = s.hazard h c cmd := by
  simp [State.hazard, State.dlabBroken, State.shutBroken]

@[simp] theorem hazard_withScratch (s : State) (l : List Byte) (h : Agent) (c : Nat) (cmd : Byte) :
    (s.withScratch l).hazard h c cmd = s.hazard h c cmd := by
  simp [State.hazard, State.dlabBroken, State.shutBroken]

@[simp] theorem hazard_addFault (s : State) (f : ModelFault) (h : Agent) (c : Nat) (cmd : Byte) :
    (s.addFault f).hazard h c cmd = s.hazard h c cmd := by
  simp [State.hazard, State.dlabBroken, State.shutBroken]

/-- With no divisor window open, an agent the shutdown rule does not name meets no hazard. -/
theorem hazard_config (s : State) (d c : Nat) (cmd : Byte) (h : s.dlabWindow = none) :
    s.hazard (.config d) c cmd = none := by
  simp [State.hazard, State.dlabBroken, State.shutBroken, h, Agent.isDeferred]

/-- An agent meets no hazard inside its own divisor window (R285). -/
theorem hazard_own_window (s : State) (d c0 c : Nat) (cmd : Byte) (h : s.dlabWindow = some (.config d, c0)) :
    s.hazard (.config d) c cmd = none := by
  simp [State.hazard, State.dlabBroken, State.shutBroken, h, Agent.isDeferred]

/-- With no divisor window open, a channel that is not shut meets no hazard. -/
theorem hazard_none (s : State) (g : Agent) (c : Nat) (cmd : Byte) (h : s.dlabWindow = none)
    (hl : (s.chan c).life ≠ .shut) : s.hazard g c cmd = none := by
  simp [State.hazard, State.dlabBroken, State.shutBroken, h, hl]

/-- The control state of an agent that no fault has stopped. -/
abbrev ctl (code : List Stmt) (acc : List Byte) (pending : List Instr) : AgentCtl :=
  { code := code, acc := acc, pending := pending, stopped := false }

/-- What an agent needs in order to step: it exists, and ATTACH has ended or is its own. -/
def State.runs (s : State) (g : Agent) : Bool := s.hasAgent g && (s.attached || g == .config 0)

theorem State.runs_hasAgent {s : State} {g : Agent} (h : s.runs g = true) : s.hasAgent g = true := by
  simp only [State.runs, Bool.and_eq_true] at h
  exact h.1

@[simp] theorem runs_setAgent (s : State) (g h : Agent) (a : AgentCtl) : (s.setAgent h a).runs g = s.runs g := by
  simp [State.runs]
@[simp] theorem runs_setChan (s : State) (g : Agent) (c : Nat) (x : Chan) : (s.setChan c x).runs g = s.runs g := by
  simp [State.runs]
@[simp] theorem runs_withBus (s : State) (g : Agent) (l : Lock) : (s.withBus l).runs g = s.runs g := by simp [State.runs]
@[simp] theorem runs_withDs (s : State) (g : Agent) (d : DState) : (s.withDs d).runs g = s.runs g := by simp [State.runs]
@[simp] theorem runs_withWindow (s : State) (g : Agent) (w : Option (Agent × Nat)) : (s.withWindow w).runs g = s.runs g := by
  simp [State.runs]
@[simp] theorem runs_withScratch (s : State) (g : Agent) (l : List Byte) : (s.withScratch l).runs g = s.runs g := by
  simp [State.runs]
@[simp] theorem runs_show (s : State) (g : Agent) (l : List Obs) : (s.show l).runs g = s.runs g := by simp [State.runs]
@[simp] theorem runs_received (s : State) (g h : Agent) (k : BusKind) (c r n : Nat) : (s.received h k c r n).runs g = s.runs g := by
  simp [State.runs]
@[simp] theorem runs_sent (s : State) (g h : Agent) (k : BusKind) (c r : Nat) (data : List Byte) :
    (s.sent h k c r data).runs g = s.runs g := by
  simp [State.runs]

/-- Runs that only look at the control state `ds` and at whether the agent has code. -/
def Follows (p : State → Bool) (g : Agent) (d : DState) : Prop :=
  ∀ t : State, t.ds = d → State.hasCode g t = true → p t = true

theorem follows_hasCode (g : Agent) (d : DState) : Follows (State.hasCode g) g d := fun _ _ h => h

theorem Follows.loaded {p : State → Bool} {g : Agent} {d : DState} (hp : Follows p g d) {t : State} (ht : t.ds = d)
    (hg : t.hasAgent g = true) {m : Stmt} {rest : List Stmt} {acc : List Byte} {q : List Instr} :
    p (t.setAgent g (ctl (m :: rest) acc q)) = true :=
  hp _ (by simp [ht]) (by simp [hg])

section Runs

variable {p : State → Bool} {n c r : Nat} {g : Agent} {s : State} {rest : List Stmt} {acc : List Byte} {q : List Instr}

/-- The agent with statements `m :: rest` runs `m`. -/
theorem run_stmt {m : Stmt} (h : s.runs g = true) (hp : p (s.setAgent g (ctl (m :: rest) acc q)) = true) :
    State.runWhile p (n + 1) g (s.setAgent g (ctl (m :: rest) acc q)) =
      State.runWhile p n g ((s.setAgent g (ctl (m :: rest) acc q)).doStmt g m rest) := by
  have hg := State.runs_hasAgent h
  simp only [State.runs, hg, Bool.true_and] at h
  rw [runWhile_next hp, agentStep_stmt (by simp [hg, h]) (nextCode_setAgent hg rfl)]

/-- A statement that goes on with `code` in the state `t`. -/
theorem run_goOn {m : Stmt} {t : State} {code : List Stmt} {acc' : List Byte} (h : s.runs g = true)
    (hp : p (s.setAgent g (ctl (m :: rest) acc q)) = true)
    (hd : (s.setAgent g (ctl (m :: rest) acc q)).doStmt g m rest = t.setAgent g (ctl code acc' q)) :
    State.runWhile p (n + 1) g (s.setAgent g (ctl (m :: rest) acc q)) =
      State.runWhile p n g (t.setAgent g (ctl code acc' q)) := by
  rw [run_stmt h hp, hd]

/-- The four statements of a read transaction's operation, after its check (R130, R132). -/
theorem run_txnRead {k : BusKind} {b : Nat} {d : DState} (h : s.runs g = true) (hb : s.busLock = .free)
    (hz : s.hazard g c (readCmd c r) = none) (hd : s.ds = d) (hp : Follows p g d) :
    State.runWhile p (n + 3) g (s.setAgent g (ctl (.acquireBus :: .txnRead k c r b :: .releaseBus :: rest) acc q)) =
      State.runWhile p n g ((s.received g k c r b).setAgent g (ctl rest (s.drawBytes b) q)) := by
  have hg := State.runs_hasAgent h
  rw [run_goOn (t := s.withBus (.held g)) h (hp.loaded hd hg)
      (by simp [State.doStmt, State.acquireBus, hb, hg]; rfl),
    run_goOn (t := (s.received g k c r b).withBus (.held g)) (acc' := s.drawBytes b) (by simpa using h)
      (hp.loaded (by simpa using hd) (by simpa using hg))
      (by simp [State.doStmt, State.txnRead, hz, hg]; rfl),
    run_goOn (t := s.received g k c r b) (by simpa using h) (hp.loaded (by simpa using hd) (by simpa using hg))
      (by simp [State.doStmt, State.releaseBus, hg, hb]; rfl)]

/-- The statements of a write transaction's operation, after its check (R130, R132). -/
theorem run_txnWrite {k : BusKind} {data : List Byte} {d : DState} (h : s.runs g = true) (hb : s.busLock = .free)
    (hz : s.hazard g c (writeCmd c r) = none) (hd : s.ds = d) (hp : Follows p g d) :
    State.runWhile p (n + 3) g (s.setAgent g (ctl (.acquireBus :: .txnWrite k c r data :: .releaseBus :: rest) acc q)) =
      State.runWhile p n g ((s.sent g k c r data).setAgent g (ctl rest acc q)) := by
  have hg := State.runs_hasAgent h
  rw [run_goOn (t := s.withBus (.held g)) h (hp.loaded hd hg)
      (by simp [State.doStmt, State.acquireBus, hb, hg]; rfl),
    run_goOn (t := (s.sent g k c r data).withBus (.held g)) (acc' := acc) (by simpa using h)
      (hp.loaded (by simpa using hd) (by simpa using hg))
      (by simp [State.doStmt, State.txnWrite, hz, hg]; rfl),
    run_goOn (t := s.sent g k c r data) (by simpa using h) (hp.loaded (by simpa using hd) (by simpa using hg))
      (by simp [State.doStmt, State.releaseBus, hg, hb]; rfl)]

/-- The address check, met (R131). -/
theorem run_checkAddr {d : DState} (h : s.runs g = true) (hc : c < s.params.nCh) (hr : r < 8) (hd : s.ds = d)
    (hp : Follows p g d) :
    State.runWhile p (n + 1) g (s.setAgent g (ctl (.checkAddr c r :: rest) acc q)) =
      State.runWhile p n g (s.setAgent g (ctl rest acc q)) := by
  have hg := State.runs_hasAgent h
  exact run_goOn h (hp.loaded hd hg) (by simp [State.doStmt, hc, hr, hg])

/-- READ run to its end (R130, R134): the transaction is shown, the byte is in `acc`, the bus is free again. -/
theorem run_read {d : DState} (h : s.runs g = true) (hc : c < s.params.nCh) (hr : r < 8) (hb : s.busLock = .free)
    (hz : s.hazard g c (readCmd c r) = none) (hd : s.ds = d) (hp : Follows p g d) :
    State.runWhile p (n + 4) g (s.setAgent g (ctl (readCode c r ++ rest) acc q)) =
      State.runWhile p n g ((s.received g .read c r 1).setAgent g (ctl rest (s.drawBytes 1) q)) := by
  rw [readCode, List.cons_append, run_checkAddr h hc hr hd hp]
  exact run_txnRead h hb hz hd hp

/-- WRITE run to its end (R130, R135). -/
theorem run_write {v : Byte} {d : DState} (h : s.runs g = true) (hc : c < s.params.nCh) (hr : r < 8) (hb : s.busLock = .free)
    (hz : s.hazard g c (writeCmd c r) = none) (hd : s.ds = d) (hp : Follows p g d) :
    State.runWhile p (n + 4) g (s.setAgent g (ctl (writeCode c r v ++ rest) acc q)) =
      State.runWhile p n g ((s.sent g .write c r [v]).setAgent g (ctl rest acc q)) := by
  rw [writeCode, List.cons_append, run_checkAddr h hc hr hd hp]
  exact run_txnWrite h hb hz hd hp

/-- UPDATE run to its end (R130, R137). -/
theorem run_update {mask value : Byte} {d : DState} (h : s.runs g = true) (hc : c < s.params.nCh) (hr : r < 8)
    (hb : s.busLock = .free) (hzr : s.hazard g c (readCmd c r) = none) (hzw : s.hazard g c (writeCmd c r) = none)
    (hd : s.ds = d) (hp : Follows p g d) :
    State.runWhile p (n + 5) g (s.setAgent g (ctl (updateCode c r mask value ++ rest) acc q)) =
      State.runWhile p n g ((s.updated g c r mask value).setAgent g (ctl rest (s.drawBytes 1) q)) := by
  have hg := State.runs_hasAgent h
  rw [updateCode, List.cons_append, run_checkAddr h hc hr hd hp]
  rw [List.cons_append, List.cons_append, List.cons_append, List.cons_append, List.nil_append,
    run_goOn (t := s.withBus (.held g)) h (hp.loaded hd hg) (by simp [State.doStmt, State.acquireBus, hb, hg]; rfl),
    run_goOn (t := (s.received g .read c r 1).withBus (.held g)) (acc' := s.drawBytes 1) (by simpa using h)
      (hp.loaded (by simpa using hd) (by simpa using hg)) (by simp [State.doStmt, State.txnRead, hzr, hg]; rfl),
    run_goOn (t := (s.updated g c r mask value).withBus (.held g)) (acc' := s.drawBytes 1) (by simpa using h)
      (hp.loaded (by simpa using hd) (by simpa using hg))
      (by simp [State.doStmt, State.txnWrite, hzw, hg, State.updated, updateValue]; rfl),
    run_goOn (t := s.updated g c r mask value) (by simpa [State.updated] using h)
      (hp.loaded (by simpa [State.updated] using hd) (by simpa [State.updated] using hg))
      (by simp [State.doStmt, State.releaseBus, hg, hb, State.updated]; rfl)]

/-- BURST_WRITE run to its end (R130, R139). -/
theorem run_burstWrite {bytes : List Byte} {d : DState} (h : s.runs g = true) (hc : c < s.params.nCh)
    (hl : bytes.length ≠ 0) (hu : bytes.length ≤ Config.fifoDepth) (hb : s.busLock = .free)
    (hz : s.hazard g c (writeCmd c 0) = none) (hd : s.ds = d) (hp : Follows p g d) :
    State.runWhile p (n + 4) g (s.setAgent g (ctl (burstWriteCode c 0 bytes ++ rest) acc q)) =
      State.runWhile p n g ((s.sent g .burstWrite c 0 bytes).setAgent g (ctl rest acc q)) := by
  have hg := State.runs_hasAgent h
  rw [burstWriteCode, List.cons_append,
    run_goOn (t := s) (acc' := acc) h (hp.loaded hd hg)
      (by simp [State.doStmt, hc, hg, hl, Nat.not_lt.mpr hu]; rfl)]
  exact run_txnWrite h hb hz hd hp

/-- BURST_READ run to its end (R130, R140). -/
theorem run_burstRead {b : Nat} {d : DState} (h : s.runs g = true) (hc : c < s.params.nCh) (hl : b ≠ 0)
    (hb : s.busLock = .free) (hz : s.hazard g c (readCmd c 0) = none) (hd : s.ds = d) (hp : Follows p g d) :
    State.runWhile p (n + 4) g (s.setAgent g (ctl (burstReadCode c b ++ rest) acc q)) =
      State.runWhile p n g ((s.received g .burstRead c 0 b).setAgent g (ctl rest (s.drawBytes b) q)) := by
  have hg := State.runs_hasAgent h
  rw [burstReadCode, List.cons_append,
    run_goOn (t := s) (acc' := acc) h (hp.loaded hd hg) (by simp [State.doStmt, hc, hg, hl]; rfl)]
  exact run_txnRead h hb hz hd hp

/-- A run of an agent that has finished its operation stops. -/
theorem run_done (h : s.hasAgent g = true) :
    State.runWhile (State.hasCode g) n g (s.setAgent g (ctl [] acc q)) = s.setAgent g (ctl [] acc q) :=
  runWhile_stop (by simp [h])

end Runs

/-! ## Requests -/

/-- What `resting` says, part by part. -/
theorem resting_iff {s : State} {g : Agent} : s.resting g = true ↔
    s.hasAgent g = true ∧ (s.agent g).code = [] ∧ (s.agent g).stopped = false ∧ (s.agent g).pending = [] ∧
      s.attached = true ∧ s.busLock = .free := by
  simp [State.resting, State.isIdle, List.isEmpty_iff, and_assoc]

/-- A ready agent is resting, and if it is the dispatcher it is in no pass. -/
theorem ready_iff {s : State} {g : Agent} : s.ready g = true ↔ s.resting g = true ∧ (g = .dispatcher → s.ds = .idle) := by
  by_cases hg : g = .dispatcher <;> simp [State.ready, hg]

theorem ready_resting {s : State} {g : Agent} (h : s.ready g = true) : s.resting g = true := (ready_iff.mp h).1

/-- Every agent but the dispatcher is ready where it is resting. -/
theorem ready_of_resting {s : State} {g : Agent} (h : s.resting g = true) (hg : g ≠ .dispatcher) : s.ready g = true :=
  ready_iff.mpr ⟨h, fun e => absurd e hg⟩

theorem resting_runs {s : State} {g : Agent} (h : s.resting g = true) : s.runs g = true := by
  obtain ⟨h1, -, -, -, h5, -⟩ := resting_iff.mp h
  simp [State.runs, h1, h5]

theorem ready_runs {s : State} {g : Agent} (h : s.ready g = true) : s.runs g = true := resting_runs (ready_resting h)

/-- The control state of a resting agent. -/
theorem resting_agent {s : State} {g : Agent} (h : s.resting g = true) : s.agent g = ctl [] (s.agent g).acc [] := by
  obtain ⟨-, h2, h3, h4, -, -⟩ := resting_iff.mp h
  cases ha : s.agent g
  simp_all

/-- A resting agent that ends as it began is written back unchanged. -/
theorem resting_setAgent {s : State} {g : Agent} (h : s.resting g = true) : s.setAgent g (ctl [] (s.agent g).acc []) = s := by
  rw [← resting_agent h, State.setAgent_self]

/-- A ready agent may start a request. -/
theorem ready_accepts {s : State} {g : Agent} (h : s.ready g = true) : s.accepts g = true := by
  obtain ⟨h, hd⟩ := ready_iff.mp h
  obtain ⟨-, h2, h3, -⟩ := resting_iff.mp h
  by_cases hg : g = .dispatcher
  · simp [State.accepts, State.isIdle, h2, h3, hd hg]
  · simp [State.accepts, State.isIdle, h2, h3, hg]

/-- A request of a ready agent starts at once and runs for the quantum granted. -/
theorem request_ready {s : State} {g : Agent} {i : Instr} (h : s.ready g = true) (hq : 0 < s.quantum) :
    s.request g i = State.runWhile (State.hasCode g) s.quantum g
      (s.setAgent g (ctl (requestCode s.params i) (s.agent g).acc [])) := by
  obtain ⟨h1, h2, h3, h4, h5, -⟩ := resting_iff.mp (ready_resting h)
  simp [State.request, ready_accepts h, hq, h3, State.enqueue, h4, State.startNext, h1, h5, nextRequest]

/-- A request of an agent that may not start one joins its pending list (R228). -/
theorem request_busy {s : State} {g : Agent} {i : Instr} (h : s.accepts g = false) : s.request g i = s.enqueue g i := by
  simp [State.request, h]

/-- A request granted no statement only joins the pending list (R228). -/
theorem request_unstarted {s : State} {g : Agent} {i : Instr} (h : s.quantum = 0) : s.request g i = s.enqueue g i := by
  simp [State.request, h]

/-! ## The dispatcher between its control states -/

section Dispatch

variable {p : State → Bool} {n c r : Nat} {s : State} {acc : List Byte} {q : List Instr} {d : DState}

/-- Runs that only look at the control state `ds`. -/
def FollowsDs (p : State → Bool) (d : DState) : Prop := ∀ t : State, t.ds = d → p t = true

theorem FollowsDs.follows (hp : FollowsDs p d) (g : Agent) : Follows p g d := fun t ht _ => hp t ht

theorem followsDs_inRx (c : Nat) (src : RxSource) (st : RxStage) : FollowsDs (State.inRx c) (.rx c src st) := by
  intro t ht
  simp [State.inRx, ht]

theorem followsDs_inMsi (c : Nat) : FollowsDs (State.inMsi c) (.msi c) := by
  intro t ht
  simp [State.inMsi, ht]

theorem followsDs_inTx (c : Nat) (st : TxStage) (h : st ≠ .done) : FollowsDs (State.inTx c) (.tx c st) := by
  intro t ht
  simp [State.inTx, ht, h]

theorem followsDs_inPass (h : d ≠ .idle) : FollowsDs State.inPass d := by
  intro t ht
  simp [State.inPass, ht, h]

/-- Between two control states the dispatcher runs the first statement of its control state. -/
theorem run_ds_stmt {m : Stmt} {rest : List Stmt} (h : s.runs .dispatcher = true) (hd : s.ds = d)
    (hcode : dispatchCode d = m :: rest) (hp : p (s.setAgent .dispatcher (ctl [] acc q)) = true) :
    State.runWhile p (n + 1) .dispatcher (s.setAgent .dispatcher (ctl [] acc q)) =
      State.runWhile p n .dispatcher ((s.setAgent .dispatcher (ctl [] acc q)).doStmt .dispatcher m rest) := by
  have hg := State.runs_hasAgent h
  simp only [State.runs, hg, Bool.true_and] at h
  rw [runWhile_next hp, agentStep_stmt (by simpa [hg] using h)]
  simp [State.nextCode, hg, hd, hcode]

/-- Between two control states the dispatcher runs its control state's first statement, which goes on with `code` in the state
`t`. -/
theorem run_ds_goOn {t : State} {acc' : List Byte} {m : Stmt} {rest code : List Stmt} (h : s.runs .dispatcher = true)
    (hd : s.ds = d) (hcode : dispatchCode d = m :: rest) (hp : FollowsDs p d)
    (hm : (s.setAgent .dispatcher (ctl [] acc q)).doStmt .dispatcher m rest = t.setAgent .dispatcher (ctl code acc' q)) :
    State.runWhile p (n + 1) .dispatcher (s.setAgent .dispatcher (ctl [] acc q)) =
      State.runWhile p n .dispatcher (t.setAgent .dispatcher (ctl code acc' q)) := by
  rw [run_ds_stmt h hd hcode (hp _ (by simp [hd])), hm]

/-- A control state whose first statement does not look at the agent's own statements may be taken as loaded. -/
theorem run_ds_load {m : Stmt} {rest : List Stmt} (h : s.runs .dispatcher = true) (hd : s.ds = d)
    (hcode : dispatchCode d = m :: rest) (hp : FollowsDs p d)
    (hm : (s.setAgent .dispatcher (ctl [] acc q)).doStmt .dispatcher m rest =
      (s.setAgent .dispatcher (ctl (m :: rest) acc q)).doStmt .dispatcher m rest) :
    State.runWhile p (n + 1) .dispatcher (s.setAgent .dispatcher (ctl [] acc q)) =
      State.runWhile p (n + 1) .dispatcher (s.setAgent .dispatcher (ctl (m :: rest) acc q)) := by
  rw [run_ds_stmt h hd hcode (hp _ (by simp [hd])), hm, run_stmt h (hp _ (by simp [hd]))]

/-- A control state that begins with a READ: the READ run to its end. -/
theorem run_ds_read {rest : List Stmt} (h : s.runs .dispatcher = true) (hd : s.ds = d)
    (hcode : dispatchCode d = readCode c r ++ rest) (hc : c < s.params.nCh) (hr : r < 8) (hb : s.busLock = .free)
    (hz : s.hazard .dispatcher c (readCmd c r) = none) (hp : FollowsDs p d) :
    State.runWhile p (n + 4) .dispatcher (s.setAgent .dispatcher (ctl [] acc q)) =
      State.runWhile p n .dispatcher
        ((s.received .dispatcher .read c r 1).setAgent .dispatcher (ctl rest (s.drawBytes 1) q)) := by
  have hg := State.runs_hasAgent h
  rw [run_ds_stmt h hd (by rw [hcode, readCode, List.cons_append]) (hp _ (by simp [hd]))]
  simp only [State.doStmt, State.setAgent_params, hc, hr, and_self, if_true, State.goOn_eq, State.setAgent_agent_self, hg,
    State.setAgent_setAgent]
  exact run_txnRead h hb hz hd (hp.follows _)

end Dispatch

end Sys2Proof.Machine
end

