-- ==== Sys2Proof/Laws/Sequences.lean ====
section
/-! SUPPORT. The shared sequences run to their end (the divisor, the modem-control write, the settling of a transmit session,
the channel lock), and what a model fault does to a ready agent. -/

namespace Sys2Proof.Machine

/-! ## Ready agents -/

/-- A bound on the quantum as a sum, for the run lemmas. -/
theorem quantum_split {n m : Nat} (h : m ≤ n) : ∃ k, n = k + m := ⟨n - m, by omega⟩

/-- A resting agent that ends with other bytes read and is otherwise as it began. -/
theorem resting_acc {s : State} {g : Agent} (h : s.resting g = true) (x : List Byte) :
    ctl [] x [] = { s.agent g with acc := x } := by
  obtain ⟨-, h2, h3, h4, -⟩ := resting_iff.mp h
  cases ha : s.agent g
  simp_all [ctl]

/-- An agent that has no step leaves the state as it is, however long it runs. -/
theorem runWhile_fixed {s : State} {g : Agent} (h : s.agentStep g = s) (n : Nat) (p : State → Bool) :
    State.runWhile p n g s = s := by
  induction n with
  | zero => rfl
  | succ n ih => simp [State.runWhile, h, ih]

/-- An agent that a fault has stopped does nothing (R246). -/
theorem runWhile_stopped {s : State} {g : Agent} (hst : (s.agent g).stopped = true) (n : Nat) (p : State → Bool) :
    State.runWhile p n g s = s :=
  runWhile_fixed (by simp [State.agentStep, State.canStep, hst]) n p

/-- An agent at `acquire ch[c].chLock` waits while the lock is held (R91). -/
theorem run_acquireCh_held {s : State} {g h : Agent} {c : Nat} {rest : List Stmt} {acc : List Byte} {q : List Instr}
    (hg : s.hasAgent g = true) (hl : (s.chan c).chLock = .held h) (n : Nat) (p : State → Bool) :
    State.runWhile p n g (s.setAgent g (ctl (.acquireCh c :: rest) acc q)) = s.setAgent g (ctl (.acquireCh c :: rest) acc q) := by
  refine runWhile_fixed ?_ n p
  unfold State.agentStep
  split
  · rw [nextCode_setAgent hg rfl]
    simp [State.doStmt, State.acquireCh, hl]
  · rfl

/-- The control state of a ready agent with other statements to run. -/
theorem ready_ctl {s : State} {g : Agent} (h : s.ready g = true) (code : List Stmt) :
    ctl code (s.agent g).acc [] = { s.agent g with code := code } := by
  obtain ⟨-, -, h3, h4, -⟩ := resting_iff.mp (ready_resting h)
  cases ha : s.agent g
  simp_all [ctl]

/-- A request that begins by acquiring a channel lock which is held waits there, and nothing else changes (R91). -/
theorem request_waits {s : State} {g h : Agent} {c : Nat} {i : Instr} {rest : List Stmt} (hr : s.ready g = true)
    (hq : 1 ≤ s.quantum) (hc : requestCode s.params i = .acquireCh c :: rest) (hl : (s.chan c).chLock = .held h) :
    s.request g i = s.setAgent g { s.agent g with code := .acquireCh c :: rest } := by
  rw [request_ready hr (by omega), hc, run_acquireCh_held (State.runs_hasAgent (ready_runs hr)) hl, ready_ctl hr]

/-- Dropping the task agents' pending requests does not touch the configuration agent (R280). -/
theorem dropTasks_setAgent (s : State) (c : Nat) (a : AgentCtl) (h : c < s.tasks.length) :
    (s.setAgent (.config c) a).dropTasks c = (s.dropTasks c).setAgent (.config c) a := by
  simp [State.setAgent, State.dropTasks, State.chanAgents, ChanAgents.dropTasks, h]

/-- Raising a fault outside the bus lock: the fault is recorded and the agent stops (R246). -/
theorem raise_free {s : State} {g : Agent} (hg : s.hasAgent g = true) (hb : s.busLock ≠ .held g) (a : AgentCtl) (f : ModelFault) :
    (s.setAgent g a).raise g f = (s.addFault f).setAgent g { a with stopped := true } := by
  simp [State.raise, State.dropBus, hb, hg]

/-- A request whose first statement raises `f`. -/
theorem request_raises {s : State} {g : Agent} {i : Instr} {m : Stmt} {rest : List Stmt} {f : ModelFault} (h : s.ready g = true)
    (hq : 1 ≤ s.quantum) (hc : requestCode s.params i = m :: rest)
    (hd : ∀ a, (s.setAgent g a).doStmt g m rest = (s.setAgent g a).raise g f) :
    s.request g i = (s.addFault f).setAgent g { s.agent g with code := m :: rest, stopped := true } := by
  obtain ⟨k, hk⟩ := quantum_split hq
  obtain ⟨hg, -, -, hpe, -, hb⟩ := resting_iff.mp (ready_resting h)
  rw [request_ready h (by omega), hk, hc, run_stmt (ready_runs h) ((follows_hasCode g s.ds).loaded rfl hg), hd,
    raise_free hg (by simp [hb]), runWhile_stopped (by simp [hg])]
  simp [hpe]

/-- The address check, met (R131). -/
theorem doStmt_checkAddr {s : State} {g : Agent} {c r : Nat} {rest : List Stmt} (hc : c < s.params.nCh) (hr : r < 8) :
    s.doStmt g (.checkAddr c r) rest = s.goOn g rest := by
  simp [State.doStmt, hc, hr]

/-- The checks of BURST_WRITE, met (R139). -/
theorem doStmt_checkBurstWrite {s : State} {g : Agent} {c n : Nat} {rest : List Stmt} (hc : c < s.params.nCh) (h1 : 1 ≤ n)
    (h2 : n ≤ 16) : s.doStmt g (.checkBurstWrite c 0 n) rest = s.goOn g rest := by
  have h0 : n ≠ 0 := by omega
  simp [State.doStmt, hc, h0, Config.fifoDepth, Nat.not_lt.mpr h2]

/-- The checks of BURST_READ, met (R140). -/
theorem doStmt_checkBurstRead {s : State} {g : Agent} {c n : Nat} {rest : List Stmt} (hc : c < s.params.nCh) (h1 : 1 ≤ n) :
    s.doStmt g (.checkBurstRead c n) rest = s.goOn g rest := by
  have h0 : n ≠ 0 := by omega
  simp [State.doStmt, hc, h0]

/-- A bus operation that passes its check `m0` and whose transaction meets the hazard `f`: it is not issued, the bus is free again,
the agent stops (R132, R246, R285, R286). -/
theorem request_hazard {s : State} {g : Agent} {i : Instr} {f : ModelFault} {m0 m : Stmt} {rest : List Stmt}
    (h : s.ready g = true) (hq : 3 ≤ s.quantum) (hcode : requestCode s.params i = m0 :: .acquireBus :: m :: rest)
    (hm : ∀ a, (s.setAgent g a).doStmt g m0 (.acquireBus :: m :: rest) = (s.setAgent g a).goOn g (.acquireBus :: m :: rest))
    (hd : ∀ a, ((s.withBus (.held g)).setAgent g a).doStmt g m rest = ((s.withBus (.held g)).setAgent g a).raise g f) :
    s.request g i = (s.addFault f).setAgent g { s.agent g with code := m :: rest, stopped := true } := by
  obtain ⟨k, hk⟩ := quantum_split hq
  obtain ⟨hg, -, -, hpe, -, hb⟩ := resting_iff.mp (ready_resting h)
  rw [request_ready h (by omega), hk, hcode,
    run_goOn (t := s) (ready_runs h) ((follows_hasCode g s.ds).loaded rfl hg) (by rw [hm]; simp [hg]; rfl),
    run_goOn (t := s.withBus (.held g)) (ready_runs h) ((follows_hasCode g s.ds).loaded rfl hg)
      (by simp [State.doStmt, State.acquireBus, hb, hg]; rfl),
    run_stmt (s := s.withBus (.held g)) (q := []) (by simpa using ready_runs h)
      ((follows_hasCode g s.ds).loaded (by simp) (by simpa using hg)), hd,
    runWhile_stopped (by simp [hg, State.raise, State.dropBus])]
  simp [State.raise, State.dropBus, hg, hpe, hb]

/-- The transaction step of the bus holder that meets the hazard `f`: nothing is issued, the bus is free, the agent stops
(R132, R246, R285, R286). -/
theorem step_hazard {s : State} {g : Agent} {c : Nat} {cmd : Byte} {f : ModelFault} {m : Stmt} {rest : List Stmt}
    (hs : s.canStep g = true) (hb : s.busLock = .held g) (hn : s.nextCode g = m :: rest)
    (hm : (∃ k r n, m = .txnRead k c r n ∧ cmd = readCmd c r) ∨ (∃ k r data, m = .txnWrite k c r data ∧ cmd = writeCmd c r) ∨
      (∃ r mask value, m = .txnUpdate c r mask value ∧ cmd = writeCmd c r) ∨ (m = .txnMcr c ∧ cmd = writeCmd c 4))
    (hz : s.hazard g c cmd = some f) :
    s.agentStep g = ((s.withBus .free).addFault f).setAgent g { s.agent g with stopped := true } := by
  have hr : s.raise g f = ((s.withBus .free).addFault f).setAgent g { s.agent g with stopped := true } := by
    simp [State.raise, State.dropBus, hb]
  rw [← hr, agentStep_stmt hs hn]
  rcases hm with ⟨k, r, n, rfl, rfl⟩ | ⟨k, r, data, rfl, rfl⟩ | ⟨r, a, b, rfl, rfl⟩ | ⟨rfl, rfl⟩ <;>
    simp [State.doStmt, State.txnRead, State.txnWrite, hb, hz, offMcr]

/-! ## Hazards -/

/-- No hazard: no window, or the agent's own; and the channel not shut, or a configuration agent (R285, R286). -/
theorem hazard_free {s : State} {g : Agent} {c : Nat} {cmd : Byte}
    (hw : s.dlabWindow = none ∨ ∃ c0, s.dlabWindow = some (g, c0)) (hl : (s.chan c).life ≠ .shut ∨ ∃ e, g = .config e) :
    s.hazard g c cmd = none := by
  have a : s.dlabBroken g c = false := by
    rcases hw with hw | ⟨c0, hw⟩ <;> simp [State.dlabBroken, hw]
  have b : s.shutBroken g c cmd = false := by
    rcases hl with hl | ⟨e, rfl⟩ <;> simp [State.shutBroken, Agent.isDeferred, *]
  simp [State.hazard, a, b]

/-- A channel's record read back, one field at a time. -/
theorem setChan_life (s : State) (c c' : Nat) (x : Chan) (hl : x.life = (s.chan c').life) :
    ((s.setChan c' x).chan c).life = (s.chan c).life := by
  by_cases hc : c = c'
  · subst hc
    by_cases hh : c < s.ch.length
    · simp [hh, hl]
    · simp [State.chan, State.setChan, hh]
  · rw [State.setChan_chan_ne _ _ _ _ hc]

/-- A hazard depends on the channel's record only through its life. -/
theorem hazard_setChan (s : State) (c c' : Nat) (x : Chan) (g : Agent) (cmd : Byte) (hl : x.life = (s.chan c').life) :
    (s.setChan c' x).hazard g c cmd = s.hazard g c cmd := by
  simp [State.hazard, State.dlabBroken, State.shutBroken, setChan_life s c c' x hl]

@[simp] theorem updated_chan (s : State) (g : Agent) (c r : Nat) (m v : Byte) (d : Nat) :
    (s.updated g c r m v).chan d = s.chan d := by simp [State.updated]
@[simp] theorem updated_ds (s : State) (g : Agent) (c r : Nat) (m v : Byte) : (s.updated g c r m v).ds = s.ds := (rfl)
@[simp] theorem updated_ch (s : State) (g : Agent) (c r : Nat) (m v : Byte) : (s.updated g c r m v).ch = s.ch := (rfl)
@[simp] theorem updated_busLock (s : State) (g : Agent) (c r : Nat) (m v : Byte) :
    (s.updated g c r m v).busLock = s.busLock := (rfl)
@[simp] theorem updated_params (s : State) (g : Agent) (c r : Nat) (m v : Byte) :
    (s.updated g c r m v).params = s.params := (rfl)
@[simp] theorem updated_hasAgent (s : State) (g h : Agent) (c r : Nat) (m v : Byte) :
    (s.updated g c r m v).hasAgent h = s.hasAgent h := by simp [State.updated]
@[simp] theorem updated_runs (s : State) (g h : Agent) (c r : Nat) (m v : Byte) :
    (s.updated g c r m v).runs h = s.runs h := by simp [State.updated]
@[simp] theorem hazard_updated (s : State) (g h : Agent) (c r d : Nat) (m v cmd : Byte) :
    (s.updated g c r m v).hazard h d cmd = s.hazard h d cmd := by simp [State.updated]

/-! ## Sequences -/

section

variable {p : State → Bool} {n c r : Nat} {g : Agent} {s : State} {rest : List Stmt} {acc : List Byte} {q : List Instr}
  {d0 : DState}

/-- A statement that only shows something. -/
theorem run_show {m : Stmt} {l : List Obs} (h : s.runs g = true) (hd : s.ds = d0) (hp : Follows p g d0)
    (hm : (s.setAgent g (ctl (m :: rest) acc q)).doStmt g m rest = (s.show l).setAgent g (ctl rest acc q)) :
    State.runWhile p (n + 1) g (s.setAgent g (ctl (m :: rest) acc q)) =
      State.runWhile p n g ((s.show l).setAgent g (ctl rest acc q)) :=
  run_goOn h (hp.loaded hd (State.runs_hasAgent h)) hm

/-- A statement that only writes the channel's record. -/
theorem run_setChan {m : Stmt} {x : Chan} (h : s.runs g = true) (hd : s.ds = d0) (hp : Follows p g d0)
    (hm : (s.setAgent g (ctl (m :: rest) acc q)).doStmt g m rest = (s.setChan c x).setAgent g (ctl rest acc q)) :
    State.runWhile p (n + 1) g (s.setAgent g (ctl (m :: rest) acc q)) =
      State.runWhile p n g ((s.setChan c x).setAgent g (ctl rest acc q)) :=
  run_goOn h (hp.loaded hd (State.runs_hasAgent h)) hm

/-- `acquire ch[c].chLock`, free (R91). -/
theorem run_acquireCh (h : s.runs g = true) (hf : (s.chan c).chLock = .free) (hd : s.ds = d0) (hp : Follows p g d0) :
    State.runWhile p (n + 1) g (s.setAgent g (ctl (.acquireCh c :: rest) acc q)) =
      State.runWhile p n g ((s.setChan c { s.chan c with chLock := .held g }).setAgent g (ctl rest acc q)) :=
  run_setChan h hd hp (by simp [State.doStmt, State.acquireCh, hf, State.runs_hasAgent h])

/-- `release ch[c].chLock`, by the holder (R91). -/
theorem run_releaseCh (h : s.runs g = true) (hf : (s.chan c).chLock = .held g) (hd : s.ds = d0) (hp : Follows p g d0) :
    State.runWhile p (n + 1) g (s.setAgent g (ctl (.releaseCh c :: rest) acc q)) =
      State.runWhile p n g ((s.setChan c { s.chan c with chLock := .free }).setAgent g (ctl rest acc q)) :=
  run_setChan h hd hp (by simp [State.doStmt, State.releaseCh, hf, State.runs_hasAgent h])

/-- SET_DIVISOR run to its end (R156, R158). -/
theorem run_setDivisor {d : Half} (h : s.runs g = true) (hc : c < s.params.nCh) (hb : s.busLock = .free)
    (hl : (s.chan c).life ≠ .shut ∨ ∃ e, g = .config e) (hd : s.ds = d0) (hp : Follows p g d0) :
    State.runWhile p (n + 23) g (s.setAgent g (ctl (setDivisorCode c d ++ rest) acc q)) =
      State.runWhile p n g (((s.divisorSet g c d).withWindow none).setAgent g (ctl rest (s.drawBytes 1) q)) := by
  have hg := State.runs_hasAgent h
  rw [setDivisorCode, List.cons_append, List.cons_append, List.append_assoc,
    run_goOn (t := s.withWindow (some (g, c))) (acc' := acc) h (hp.loaded hd hg) (by simp [State.doStmt, hg]; rfl),
    run_read (by simpa using h) (by simpa using hc) (by decide) (by simpa using hb)
      (hazard_free (Or.inr ⟨c, by simp⟩) (by simpa using hl)) (by simpa using hd) hp]
  simp only [State.withWindow_received, State.withWindow_drawBytes]
  rw [run_goOn (acc' := s.drawBytes 1) (code := divisorWritesCode c d ((s.drawBytes 1).headD 0#8) ++ rest)
      (t := (s.received g .read c offLcr 1).withWindow (some (g, c))) (by simpa using h)
      (hp.loaded (by simpa using hd) (by simpa using hg)) (by simp [State.doStmt, hg]), divisorWritesCode]
  simp only [List.append_assoc]
  rw [run_write (by simpa using h) (by simpa using hc) (by decide) (by simpa using hb)
      (hazard_free (Or.inr ⟨c, by simp⟩) (by simpa using hl)) (by simpa using hd) hp,
    run_write (by simpa using h) (by simpa using hc) (by decide) (by simpa using hb)
      (hazard_free (Or.inr ⟨c, by simp⟩) (by simpa using hl)) (by simpa using hd) hp,
    run_write (by simpa using h) (by simpa using hc) (by decide) (by simpa using hb)
      (hazard_free (Or.inr ⟨c, by simp⟩) (by simpa using hl)) (by simpa using hd) hp,
    run_write (by simpa using h) (by simpa using hc) (by decide) (by simpa using hb)
      (hazard_free (Or.inr ⟨c, by simp⟩) (by simpa using hl)) (by simpa using hd) hp]
  simp only [State.withWindow_sent, List.cons_append, List.nil_append]
  rw [run_goOn (acc' := s.drawBytes 1) (code := rest) (t := (s.divisorSet g c d).withWindow none) (by simpa using h)
    (hp.loaded (by simpa using hd) (by simpa using hg)) (by simp [State.doStmt, hg, State.divisorSet]; rfl)]

/-- `WRITE(c, 0x04, mctrlReq | forced)` run to its end (R221). -/
theorem run_mcr (h : s.runs g = true) (hc : c < s.params.nCh) (hb : s.busLock = .free)
    (hz : ∀ cmd, s.hazard g c cmd = none) (hd : s.ds = d0) (hp : Follows p g d0) :
    State.runWhile p (n + 4) g (s.setAgent g (ctl (mcrCode c ++ rest) acc q)) =
      State.runWhile p n g
        ((s.sent g .write c 4 [(s.chan c).mctrlReq ||| (s.chan c).forced]).setAgent g (ctl rest acc q)) := by
  have hg := State.runs_hasAgent h
  rw [mcrCode, List.cons_append, run_checkAddr h hc (by decide) hd hp, List.cons_append, List.cons_append, List.cons_append,
    List.nil_append, run_goOn (t := s.withBus (.held g)) h (hp.loaded hd hg)
      (by simp [State.doStmt, State.acquireBus, hb, hg]; rfl),
    run_goOn (t := (s.sent g .write c 4 [(s.chan c).mctrlReq ||| (s.chan c).forced]).withBus (.held g)) (acc' := acc)
      (by simpa using h) (hp.loaded (by simpa using hd) (by simpa using hg))
      (by simp [State.doStmt, State.txnWrite, hz, hg, offMcr]; rfl),
    run_goOn (t := s.sent g .write c 4 [(s.chan c).mctrlReq ||| (s.chan c).forced]) (by simpa using h)
      (hp.loaded (by simpa using hd) (by simpa using hg)) (by simp [State.doStmt, State.releaseBus, hg, hb]; rfl)]

/-- The THRE interrupt disabled and the session over (R211). -/
theorem run_settleTail (h : s.runs g = true) (hc : c < s.params.nCh) (hb : s.busLock = .free)
    (hz : ∀ cmd, s.hazard g c cmd = none) (hd : s.ds = d0) (hp : Follows p g d0) :
    State.runWhile p (n + 6) g (s.setAgent g (ctl (settleTailCode c ++ rest) acc q)) =
      State.runWhile p n g ((s.txDisabled g c).setAgent g (ctl rest (s.drawBytes 1) q)) := by
  have hg := State.runs_hasAgent h
  rw [settleTailCode, List.append_assoc, run_update h hc (by decide) hb (hz _) (hz _) hd hp, List.cons_append, List.nil_append,
    run_goOn (t := s.txDisabled g c) (acc' := s.drawBytes 1) (code := rest) (by simpa using h)
      (hp.loaded (by simpa using hd) (by simpa using hg)) (by simp [State.doStmt, hg, State.txDisabled]; rfl)]

/-- TX_SETTLE run to its end, in at most 13 statements (R211). -/
theorem run_settle (h : s.runs g = true) (hc : c < s.params.nCh) (hb : s.busLock = .free)
    (hz : ∀ cmd, s.hazard g c cmd = none) (hd : s.ds = d0) (hp : Follows p g d0) : ∃ k, n ≤ k ∧
    State.runWhile p (n + 13) g (s.setAgent g (ctl (.settle c :: rest) acc q)) =
      State.runWhile p k g ((s.settled g c).1.setAgent g (ctl rest (s.settled g c).2 q)) := by
  have hg := State.runs_hasAgent h
  unfold State.settled
  by_cases he : (s.chan c).rs485.enabled = true
  · have h1 : (s.received g .read c offLsr 1).runs g = true := by simpa using h
    have hg1 : (s.received g .read c offLsr 1).hasAgent g = true := by simpa using hg
    have hd1 : (s.received g .read c offLsr 1).ds = d0 := by simpa using hd
    rw [if_pos he, run_goOn (t := s) (acc' := acc) (code := readCode c offLsr ++ .settleLsr c :: rest) h (hp.loaded hd hg)
        (by simp [State.doStmt, State.settle, he, hg]), run_read h hc (by decide) hb (hz _) hd hp]
    by_cases ht : ((s.drawBytes 1).headD 0#8).has 6 = true
    · have ht' := ht
      rw [List.headD_eq_head?_getD] at ht'
      rw [if_pos ht]
      by_cases hq : (s.chan c).txQueue = []
      · refine ⟨n, le_refl _, ?_⟩
        rw [if_pos hq, run_goOn (t := s.received g .read c offLsr 1) (acc' := s.drawBytes 1)
            (code := .sleep (s.chan c).rs485.postDelay :: settleTailCode c ++ rest) h1 (hp.loaded hd1 hg1)
            (by simp [State.doStmt, State.settleLsr, lsrTemt, ht', hq, hg]), List.cons_append,
          run_show (l := [.sleep g (s.chan c).rs485.postDelay]) h1 hd1 hp (by simp [State.doStmt, hg]),
          run_settleTail (by simpa using h) (by simpa using hc) (by simpa using hb) (by simpa using hz) (by simpa using hd) hp]
        rfl
      · refine ⟨n + 1, by omega, ?_⟩
        rw [if_neg hq, run_goOn (t := s.received g .read c offLsr 1) (acc' := s.drawBytes 1)
            (code := settleTailCode c ++ rest) h1 (hp.loaded hd1 hg1)
            (by simp [State.doStmt, State.settleLsr, lsrTemt, ht', hq, hg]), show n + 7 = (n + 1) + 6 by omega,
          run_settleTail (by simpa using h) (by simpa using hc) (by simpa using hb) (by simpa using hz) (by simpa using hd) hp]
        rfl
    · have ht' := ht
      rw [List.headD_eq_head?_getD] at ht'
      refine ⟨n + 7, by omega, ?_⟩
      rw [if_neg ht, run_goOn (t := s.received g .read c offLsr 1) (acc' := s.drawBytes 1) (code := rest) h1
        (hp.loaded hd1 hg1) (by simp [State.doStmt, State.settleLsr, lsrTemt, ht', hg])]
      rfl
  · refine ⟨n + 6, by omega, ?_⟩
    rw [if_neg he, run_goOn (t := s) (acc' := acc) (code := settleTailCode c ++ rest) h (hp.loaded hd hg)
        (by simp [State.doStmt, State.settle, he, hg]), show n + 12 = (n + 6) + 6 by omega,
      run_settleTail h hc hb hz hd hp]

/-- FLOW_BODY run to its end, in at most 6 statements (R224). -/
theorem run_flow {en : Bool} (h : s.runs g = true) (hc : c < s.params.nCh) (hl : c < s.ch.length) (hb : s.busLock = .free)
    (hz : ∀ cmd, s.hazard g c cmd = none) (hd : s.ds = d0) (hp : Follows p g d0) : ∃ k, n ≤ k ∧
    State.runWhile p (n + 6) g (s.setAgent g (ctl (flowCode c en ++ rest) acc q)) =
      State.runWhile p k g
        ((((s.sent g .write c 4 [(s.chan c).mctrlReq ||| flowForced s.params.mcr en (s.chan c).forced]).show
          (if en then [.emit (.ctsChange c true)] else [])).setChan c
            { s.chan c with forced := flowForced s.params.mcr en (s.chan c).forced }).setAgent g (ctl rest acc q)) := by
  have hg := State.runs_hasAgent h
  rw [flowCode, List.cons_append, List.cons_append, List.append_assoc,
    run_setChan (c := c) (x := { s.chan c with forced := flowForced s.params.mcr en (s.chan c).forced }) h hd hp
      (by simp [State.doStmt, hg])]
  have hz' : ∀ cmd, (s.setChan c { s.chan c with forced := flowForced s.params.mcr en (s.chan c).forced }).hazard g c cmd = none :=
    fun cmd => by rw [hazard_setChan s c c { s.chan c with forced := flowForced s.params.mcr en (s.chan c).forced } g cmd rfl]; exact hz cmd
  rw [show n + 5 = n + 1 + 4 by omega,
    run_mcr (by simpa using h) (by simpa using hc) (by simpa using hb) hz' (by simpa using hd) hp,
    State.setChan_chan_self s c _ hl, State.setChan_sent]
  cases en with
  | true =>
    refine ⟨n, le_refl _, ?_⟩
    rw [if_pos rfl, List.cons_append, List.nil_append,
      run_show (l := [.emit (.ctsChange c true)]) (by simpa using h) (by simpa using hd) hp (by simp [State.doStmt, hg])]
    simp
  | false =>
    refine ⟨n + 1, by omega, ?_⟩
    simp

end

/-- A request of one statement that only shows something. -/
theorem request_show {s : State} {g : Agent} {i : Instr} {l : List Obs} {m : Stmt} (h : s.ready g = true) (hq : 1 ≤ s.quantum)
    (hc : requestCode s.params i = [m])
    (hm : (s.setAgent g (ctl [m] (s.agent g).acc [])).doStmt g m [] = (s.show l).setAgent g (ctl [] (s.agent g).acc [])) :
    s.request g i = s.show l := by
  obtain ⟨k, hk⟩ := quantum_split hq
  have hg := (resting_iff.mp (ready_resting h)).1
  rw [request_ready h (by omega), hc, hk, run_show (ready_runs h) rfl (follows_hasCode _ _) hm, run_done (by simpa using hg), ← resting_agent (ready_resting h)]
  conv_lhs => rw [show s.agent g = (s.show l).agent g by simp, State.setAgent_self]

/-- A state whose resting agent is written back with what it held is that state. -/
theorem resting_back {s t : State} {g : Agent} (h : s.resting g = true) (ht : t.agent g = s.agent g) :
    t.setAgent g (ctl [] (s.agent g).acc []) = t := by
  rw [← resting_agent h, ← ht, State.setAgent_self]

/-- What TX_SETTLE never changes, and what of the channel it keeps (R211). -/
theorem settled_frame (s : State) (g : Agent) (c : Nat) :
    (s.settled g c).1.ch.length = s.ch.length ∧ (s.settled g c).1.ds = s.ds ∧ (s.settled g c).1.tasks = s.tasks ∧
      (s.settled g c).1.disp = s.disp ∧ (s.settled g c).1.attached = s.attached ∧
      (c < s.ch.length → ((s.settled g c).1.chan c).chLock = (s.chan c).chLock) := by
  unfold State.settled
  by_cases he : (s.chan c).rs485.enabled = true
  · by_cases ht : ((s.drawBytes 1).head?.getD 0#8).has 6 = true
    · by_cases hq : (s.chan c).txQueue = [] <;>
        simp +contextual [State.txDisabled, State.updated, he, ht, hq]
    · simp [he, ht]
  · simp +contextual [State.txDisabled, State.updated, he]

@[simp] theorem settled_hasAgent (s : State) (g h : Agent) (c : Nat) :
    (s.settled g c).1.hasAgent h = s.hasAgent h := by
  cases h <;> simp [State.hasAgent, (settled_frame s g c).2.2.1]

@[simp] theorem settled_runs (s : State) (g h : Agent) (c : Nat) : (s.settled g c).1.runs h = s.runs h := by
  simp [State.runs, (settled_frame s g c).2.2.2.2.1]

/-- TX_SETTLE does not look at the channel lock. -/
theorem settled_setLock (s : State) (g : Agent) (c : Nat) (l : Lock) (hl : c < s.ch.length) :
    (s.setChan c { s.chan c with chLock := l }).settled g c =
      ((s.settled g c).1.setChan c { (s.settled g c).1.chan c with chLock := l }, (s.settled g c).2) := by
  unfold State.settled
  by_cases he : (s.chan c).rs485.enabled = true
  · by_cases ht : ((s.drawBytes 1).head?.getD 0#8).has 6 = true
    · by_cases hq : (s.chan c).txQueue = [] <;> simp [State.txDisabled, State.updated, he, ht, hq, hl]
    · simp [he, ht, hl]
  · simp [State.txDisabled, State.updated, he, hl]

end Sys2Proof.Machine
end

