-- ==== Sys2Proof/Laws/Steps.lean ====
section
/-! SUPPORT. What every step does: `raise` field by field, the parameters through a statement, what a statement leaves of its
agent's statements, the closure principles by which a property kept by one step of an agent is kept by every operation and by
every step of the machine, and the statement lists that check before they transact. -/

namespace Sys2Proof.Machine

/-! ## `raise` -/

@[simp] theorem raise_params (s : State) (g : Agent) (f : ModelFault) : (s.raise g f).params = s.params := by
  simp only [State.raise, State.dropBus]
  split <;> simp

@[simp] theorem raise_chan (s : State) (g : Agent) (f : ModelFault) (c : Nat) : (s.raise g f).chan c = s.chan c := by
  simp only [State.raise, State.dropBus]
  split <;> simp

@[simp] theorem raise_out (s : State) (g : Agent) (f : ModelFault) : (s.raise g f).out = s.out := by
  simp only [State.raise, State.dropBus]
  split <;> simp

/-- A raised fault is recorded, and the ones before it stay (R246). -/
theorem raise_faults (s : State) (g : Agent) (f k : ModelFault) : k ∈ (s.raise g f).faults ↔ k ∈ s.faults ∨ k = f := by
  have : (s.raise g f).faults = (s.addFault f).faults := by
    simp only [State.raise, State.dropBus]
    split <;> simp
  rw [this, State.addFault_faults]
  split
  · exact ⟨Or.inl, fun h => h.elim id (fun h => h ▸ ‹_›)⟩
  · simp

/-- The agent that raises a fault stops, and no other agent changes (R246). -/
theorem raise_agent (s : State) (g h : Agent) (f : ModelFault) (hg : s.hasAgent g = true) :
    (s.raise g f).agent h = if h = g then { s.agent g with stopped := true } else s.agent h := by
  simp only [State.raise, State.dropBus]
  split <;> by_cases hh : h = g <;> simp [hh, hg, State.setAgent_agent_ne]

/-! ## Channels and agents -/

/-- A channel after a write of one channel. -/
theorem setChan_chan (s : State) (c d : Nat) (x : Chan) :
    (s.setChan c x).chan d = if d = c ∧ c < s.ch.length then x else s.chan d := by
  split
  · rename_i h
    obtain ⟨rfl, h⟩ := h
    simp [h]
  · rename_i h
    by_cases hd : d = c
    · subst hd
      simp only [true_and] at h
      simp [State.chan, State.setChan, h]
    · simp [State.setChan_chan_ne, hd]

@[simp] theorem setAgent_tasks_length (s : State) (g : Agent) (a : AgentCtl) :
    (s.setAgent g a).tasks.length = s.tasks.length := by
  cases g <;> simp [State.setAgent]

/-- An agent that does not exist is not written. -/
theorem setAgent_absent (s : State) (g : Agent) (a : AgentCtl) (hg : s.hasAgent g = false) : s.setAgent g a = s := by
  cases g with
  | dispatcher => cases hg
  | _ c =>
    have hl : s.tasks.length ≤ c := by simpa [State.hasAgent] using hg
    simp only [State.setAgent]
    rw [List.set_eq_of_length_le hl]

/-! ## One statement -/

/-- No statement changes a parameter (R272). -/
@[simp] theorem doStmt_params (s : State) (g : Agent) (m : Stmt) (rest : List Stmt) : (s.doStmt g m rest).params = s.params := by
  cases m <;> simp only [State.doStmt, State.txnRead, State.txnWrite, State.acquireBus, State.releaseBus, State.acquireCh,
    State.releaseCh, State.setLineStart, State.beginSession, State.settle, State.settleLsr, State.awaitTasks, State.getStatus,
    State.rs485Start, State.initState, State.dispatchOn, State.classify, State.flush, State.txXCharDone, State.txBurst,
    State.txBurstDone, State.nextCh] <;> (repeat' split) <;> simp

@[simp] theorem agentStep_params (s : State) (g : Agent) : (s.agentStep g).params = s.params := by
  unfold State.agentStep
  (repeat' split) <;> simp

/-- A fault leaves its agent the statements it had (R246). -/
theorem raise_code (s : State) (g : Agent) (f : ModelFault) (hg : s.hasAgent g = true) :
    ((s.raise g f).agent g).code = (s.agent g).code := by
  rw [raise_agent _ _ _ _ hg, if_pos rfl]

/-- Dropping pending requests leaves every agent its statements (R280). -/
theorem dropTasks_code (s : State) (c : Nat) (g : Agent) : ((s.dropTasks c).agent g).code = (s.agent g).code := by
  cases g <;> simp only [State.agent, State.dropTasks, State.chanAgents, List.getD_eq_getElem?_getD, List.getElem?_set]
  all_goals
    split
    · rename_i h
      subst h
      split
      · simp [ChanAgents.dropTasks]
      · rename_i hh
        simp [List.getElem?_eq_none (Nat.le_of_not_lt hh)]
    · rfl

@[simp] theorem dropTasks_hasAgent (s : State) (c : Nat) (g : Agent) : (s.dropTasks c).hasAgent g = s.hasAgent g := by
  cases g <;> simp [State.hasAgent]

/-- A statement that takes or gives back no channel lock, and brings in no statement that does. -/
def Stmt.plain : Stmt → Bool
  | .acquireCh _ | .releaseCh _ | .initState | .setLineStart _ _ | .rs485Start _ _ => false
  | _ => true

/-- A plain statement leaves its agent where it is (it waits, or a fault stops it), or goes on with what follows it, behind plain
statements. -/
theorem doStmt_code (s : State) (g : Agent) (m : Stmt) (rest : List Stmt) (hg : s.hasAgent g = true)
    (hc : (s.agent g).code = m :: rest) (hm : m.plain = true) :
    ((s.doStmt g m rest).agent g).code = m :: rest ∨
    ∃ new, ((s.doStmt g m rest).agent g).code = new ++ rest ∧ ∀ m ∈ new, m.plain = true := by
  have nil : ∀ l : List Stmt, l = rest → ∃ new, l = new ++ rest ∧ ∀ m ∈ new, m.plain = true := fun l h => ⟨[], h, by simp⟩
  cases m <;> simp only [State.doStmt, State.txnRead, State.txnWrite, State.acquireBus, State.releaseBus, State.beginSession,
    State.settle, State.settleLsr, State.awaitTasks, State.getStatus, State.dispatchOn, State.classify, State.flush,
    State.txXCharDone, State.txBurst, State.txBurstDone, State.nextCh, Stmt.plain, Bool.false_eq_true] at hm hc ⊢
  all_goals (repeat' split)
  all_goals try simp only [raise_code _ _ _ hg, dropTasks_code, hc, true_or]
  all_goals try (right; apply nil; simp [hg]; done)
  case attachDone =>
    right
    apply nil
    change ((State.setAgent { s with attached := true } g _).agent g).code = rest
    rw [State.setAgent_agent_self]
    cases g <;> exact hg
  all_goals right
  all_goals simp only [State.goOn_eq, State.setAgent_agent_self, State.withScratch_hasAgent, hg]
  case divisorWrites => exact ⟨_, rfl, by simp [divisorWritesCode, writeCode]⟩
  case beginSession.isFalse.isTrue => exact ⟨[_, _], rfl, by simp⟩
  case beginSession.isFalse.isFalse => exact ⟨[_], rfl, by simp⟩
  case settle.isTrue c _ => exact ⟨readCode c offLsr ++ [.settleLsr c], by simp, by simp [readCode]⟩
  case settle.isFalse => exact ⟨settleTailCode _, rfl, by simp [settleTailCode, updateCode]⟩
  case settleLsr.isFalse.isTrue => exact ⟨.sleep _ :: settleTailCode _, rfl, by simp [settleTailCode, updateCode]⟩
  case settleLsr.isFalse.isFalse => exact ⟨settleTailCode _, rfl, by simp [settleTailCode, updateCode]⟩
  case rlsCheck.isTrue c _ => exact ⟨readCode c offData ++ [.classify c (s.readByte g) .rls .flush], by simp,
    by simp [readCode]⟩
  case h_1 c _ b _ => exact ⟨writeCode c offData b ++ [.txXCharDone c], by simp, by simp [writeCode]⟩
  case txBurst c => exact ⟨burstWriteCode c offData (s.burstBytes c) ++ [.txBurstDone c (s.burstBytes c).length], by simp,
    by simp [burstWriteCode]⟩

/-! ## Closure -/

/-- A property that every step of an agent keeps is kept by every run. -/
theorem runWhile_keeps {Q : State → Prop} (hq : ∀ s g, Q s → Q (s.agentStep g)) (p : State → Bool) (n : Nat) (g : Agent) :
    ∀ s, Q s → Q (State.runWhile p n g s) := by
  induction n with
  | zero => exact fun _ h => h
  | succ n ih =>
    intro s h
    simp only [State.runWhile]
    split
    · exact ih _ (hq _ _ h)
    · exact h

/-- The updates that operations make outside the steps of an agent, each of which keeps `Q`. -/
structure Kept (Q : State → Prop) : Prop where
  step : ∀ s g, Q s → Q (s.agentStep g)
  signal : ∀ s b, Q s → Q { s with sigPending := b }
  ds : ∀ s d, Q s → Q (s.withDs d)
  unexpected : ∀ s c v, Q s → Q (s.show [.log (.unexpectedInterruptSource c v)])
  start : ∀ s g i p, Q s → Q (s.setAgent g { s.agent g with code := requestCode s.params i, pending := p })
  pend : ∀ s g p, Q s → Q (s.setAgent g { s.agent g with pending := p })
  dispatched : ∀ s c rest, Q s → s.disp.code = .iirDispatch c :: rest → Q (s.goOn .dispatcher rest)
  raise : ∀ s g f, Q s → Q (s.raise g f)
  fault : ∀ s f, Q s → Q (s.addFault f)

/-- Every operation answers a next state, in which a kept property still holds. -/
theorem exec_keeps {Q : State → Prop} (k : Kept Q) (i : Instr) (s : State) (hs : Q s) : ∃ t, exec i s = .next t ∧ Q t := by
  have hreq : ∀ g i, Q (s.request g i) := by
    intro g i
    have he : Q (s.enqueue g i) := k.pend _ _ _ hs
    unfold State.request
    split
    · refine runWhile_keeps k.step _ _ _ _ ?_
      unfold State.startNext
      split
      · exact he
      · exact k.start _ _ _ _ he
    · exact he
  have hon : ∀ c g i, Q (s.requestOn c g i) := by
    intro c g i
    unfold State.requestOn
    split
    · exact hreq _ _
    · split
      · exact k.fault _ _ hs
      · exact hs
  have hiir : ∀ v a, Q (s.takeIir v a) := by
    intro v a
    unfold State.takeIir
    split
    · rename_i c rest hc
      split
      · have hc' : s.disp.code = .iirDispatch c :: rest := by
          unfold State.iirChannel at hc
          split at hc <;> simp_all
        have hgo : ∀ d, Q (s.goDs .dispatcher d rest) := fun d => by
          simpa using k.ds _ d (k.dispatched s c rest hs hc')
        unfold State.dispatchOn
        split
        all_goals first | exact hgo _ | skip
        simpa using k.ds _ (.nextCh c) (k.dispatched _ c rest (k.unexpected s c v hs) hc')
      · exact hs
    · exact hs
  cases i <;> refine ⟨_, rfl, ?_⟩
  all_goals first | exact hreq _ _ | exact hon _ _ _ | exact hiir _ _ | skip
  · exact k.signal _ _ hs
  · split
    · exact runWhile_keeps k.step _ _ _ _ (k.ds _ _ (k.signal s false hs))
    · exact hs
  all_goals
    split
    · exact runWhile_keeps k.step _ _ _ _ hs
    · first | exact hs | exact hon _ _ _

/-- A kept property that the inputs and the collaborator keep too is kept by every step of the machine. -/
theorem step_keeps {Q : State → Prop} (k : Kept Q) (hin : ∀ s, Q s → Q s.takeInput) (hq : ∀ s c l, Q s → Q (s.queueTx c l))
    (hx : ∀ s c b, Q s → Q (s.setXChar c b)) (hstop : ∀ s c v, Q s → Q (s.setTxStopped c v)) {s t : State} (hs : Q s)
    (h : Sys2Proof.Machine.step s = .next t) : Q t := by
  unfold Sys2Proof.Machine.step at h
  have ex : ∀ i, exec i s.takeInput = .next t → Q t := by
    intro i he
    obtain ⟨t', h1, h2⟩ := exec_keeps k i s.takeInput (hin _ hs)
    rw [h1] at he
    cases he
    exact h2
  split at h
  · split at h
    · exact ex _ h
    · split at h
      · exact ex _ h
      · unfold State.badRecord at h
        split at h <;> cases h <;> unfold State.raiseOnRecord <;> split
        all_goals first | exact k.raise _ _ _ (hin _ hs) | exact hin _ hs
    · cases h
      unfold State.runTurn
      split
      · refine runWhile_keeps k.step _ _ _ _ ?_
        unfold State.begin
        split
        · split
          · split
            · exact k.ds _ _ (k.signal _ false (hin _ hs))
            · exact hin _ hs
          · unfold State.startNext
            split
            · exact hin _ hs
            · exact k.start _ _ _ _ (hin _ hs)
        · exact hin _ hs
      · exact hin _ hs
    · cases h
      unfold State.dropPending
      split
      · exact k.pend _ _ _ (hin _ hs)
      · exact hin _ hs
    · cases h
      exact hq _ _ _ (hin _ hs)
    · cases h
      exact hx _ _ _ (hin _ hs)
    · cases h
      exact hstop _ _ _ (hin _ hs)
  · cases h

/-! ## Statement lists that check before they transact -/

theorem guarded_append {n : Nat} {l1 l2 : List Stmt} (h1 : Guarded n l1) (h2 : Guarded n l2) : Guarded n (l1 ++ l2) := by
  induction l1 with
  | nil => exact h2
  | cons m l ih =>
    cases m <;> simp only [List.cons_append, Guarded] at h1 ⊢
    all_goals
      first
        | exact ih h1
        | exact fun h => ih (h1 h)
        | exact ⟨h1.1, h1.2.1, h1.2.2.1, h1.2.2.2.1, ih h1.2.2.2.2⟩
        | exact ⟨h1.1, h1.2.1, h1.2.2.1, ih h1.2.2.2⟩
        | exact ⟨h1.1, h1.2.1, ih h1.2.2⟩
        | exact ⟨h1.1, ih h1.2⟩

theorem guarded_read (n c r : Nat) : Guarded n (readCode c r) := by simp [readCode, Guarded]

theorem guarded_write (n c r : Nat) (v : Byte) : Guarded n (writeCode c r v) := by
  simp [writeCode, Guarded, Config.fifoDepth]

theorem guarded_update (n c r : Nat) (m v : Byte) : Guarded n (updateCode c r m v) := by
  simp only [updateCode, Guarded]
  exact fun h => ⟨h.1, h.2, by omega, h.1, h.2, trivial⟩

theorem guarded_mcr (n c : Nat) : Guarded n (mcrCode c) := by
  simp only [mcrCode, Guarded]
  exact fun h => ⟨h.1, trivial⟩

theorem guarded_burstWrite (n c r : Nat) (l : List Byte) : Guarded n (burstWriteCode c r l) := by
  simp only [burstWriteCode, Guarded, offData]
  exact fun h => ⟨h.1, by omega, by omega, h.2.2.2, trivial⟩

theorem guarded_burstRead (n c k : Nat) : Guarded n (burstReadCode c k) := by
  simp only [burstReadCode, Guarded, offData]
  exact fun h => ⟨h.1, by omega, by omega, trivial⟩

theorem guarded_flatMap {α : Type} (n : Nat) (l : List α) (f : α → List Stmt) (h : ∀ x ∈ l, Guarded n (f x)) :
    Guarded n (l.flatMap f) := by
  induction l with
  | nil => trivial
  | cons x l ih =>
    rw [List.flatMap_cons]
    exact guarded_append (h x (by simp)) (ih fun y hy => h y (by simp [hy]))

end Sys2Proof.Machine
end

