-- ==== Sys2Proof/Laws/Inputs.lean ====
section
/-! SUPPORT. The environment's data (the inputs, the turn, the quantum) is read when an input is taken and when a run begins, and by
no statement: every operation of an agent commutes with a change of it. And the agent that an operation is requested of. -/

namespace Sys2Proof.Machine

/-- `s` with other inputs, another turn and another quantum. -/
def State.given (s : State) (x : List Input) (y : Nat) (h : Agent) (q : Nat) : State :=
  { s with inbox := x, inputs := y, turn := h, quantum := q }

section

variable (s : State) (x : List Input) (y q : Nat) (h : Agent)

@[simp] theorem given_params : (s.given x y h q).params = s.params := rfl
@[simp] theorem given_busLock : (s.given x y h q).busLock = s.busLock := rfl
@[simp] theorem given_scratch : (s.given x y h q).scratch = s.scratch := rfl
@[simp] theorem given_chan (c : Nat) : (s.given x y h q).chan c = s.chan c := rfl
@[simp] theorem given_chanAgents (c : Nat) : (s.given x y h q).chanAgents c = s.chanAgents c := rfl
@[simp] theorem given_agent (g : Agent) : (s.given x y h q).agent g = s.agent g := by cases g <;> rfl
@[simp] theorem given_readByte (g : Agent) : (s.given x y h q).readByte g = s.readByte g := by simp [State.readByte]
@[simp] theorem given_burstBytes (c : Nat) : (s.given x y h q).burstBytes c = s.burstBytes c := rfl
@[simp] theorem given_drawBytes (n : Nat) : (s.given x y h q).drawBytes n = s.drawBytes n := rfl
@[simp] theorem given_hazard (g : Agent) (c : Nat) (cmd : Byte) : (s.given x y h q).hazard g c cmd = s.hazard g c cmd := rfl
@[simp] theorem given_canStep (g : Agent) : (s.given x y h q).canStep g = s.canStep g := by cases g <;> rfl
@[simp] theorem given_nextCode (g : Agent) : (s.given x y h q).nextCode g = s.nextCode g := by cases g <;> rfl

@[simp] theorem given_show (l : List Obs) : (s.given x y h q).show l = (s.show l).given x y h q := rfl
@[simp] theorem given_withBus (l : Lock) : (s.given x y h q).withBus l = (s.withBus l).given x y h q := rfl
@[simp] theorem given_withDs (d : DState) : (s.given x y h q).withDs d = (s.withDs d).given x y h q := rfl
@[simp] theorem given_withWindow (w : Option (Agent × Nat)) : (s.given x y h q).withWindow w = (s.withWindow w).given x y h q := rfl
@[simp] theorem given_withScratch (l : List Byte) : (s.given x y h q).withScratch l = (s.withScratch l).given x y h q := rfl
@[simp] theorem given_setChan (c : Nat) (a : Chan) : (s.given x y h q).setChan c a = (s.setChan c a).given x y h q := rfl
@[simp] theorem given_addFault (f : ModelFault) : (s.given x y h q).addFault f = (s.addFault f).given x y h q := rfl
@[simp] theorem given_dropTasks (c : Nat) : (s.given x y h q).dropTasks c = (s.dropTasks c).given x y h q := rfl
@[simp] theorem given_received (g : Agent) (k : BusKind) (c r n : Nat) :
    (s.given x y h q).received g k c r n = (s.received g k c r n).given x y h q := rfl
@[simp] theorem given_sent (g : Agent) (k : BusKind) (c r : Nat) (l : List Byte) :
    (s.given x y h q).sent g k c r l = (s.sent g k c r l).given x y h q := rfl
@[simp] theorem given_setAgent (g : Agent) (a : AgentCtl) : (s.given x y h q).setAgent g a = (s.setAgent g a).given x y h q := by
  cases g <;> rfl
@[simp] theorem given_goOn (g : Agent) (l : List Stmt) : (s.given x y h q).goOn g l = (s.goOn g l).given x y h q := by
  cases g <;> rfl
@[simp] theorem given_goDs (g : Agent) (d : DState) (l : List Stmt) :
    (s.given x y h q).goDs g d l = (s.goDs g d l).given x y h q := by
  simp
@[simp] theorem given_raise (g : Agent) (f : ModelFault) : (s.given x y h q).raise g f = (s.raise g f).given x y h q := by
  by_cases hb : s.busLock = .held g <;> simp [State.raise, State.dropBus, hb]
@[simp] theorem given_initState (g : Agent) (l : List Stmt) : (s.given x y h q).initState g l = (s.initState g l).given x y h q := by
  cases g <;> rfl

/-- No statement looks at the environment's data. -/
theorem given_doStmt (g : Agent) (m : Stmt) (rest : List Stmt) :
    (s.given x y h q).doStmt g m rest = (s.doStmt g m rest).given x y h q := by
  cases m
  case attachDone => cases g <;> rfl
  all_goals
    simp only [State.doStmt, State.txnRead, State.txnWrite, State.acquireBus, State.releaseBus, State.acquireCh, State.releaseCh,
      State.setLineStart, State.beginSession, State.settle, State.settleLsr, State.awaitTasks, State.getStatus, State.rs485Start,
      State.dispatchOn, State.classify, State.flush, State.txXCharDone, State.txBurst, State.txBurstDone, State.nextCh,
      given_params, given_busLock, given_scratch, given_chan, given_chanAgents, given_agent, given_readByte, given_burstBytes,
      given_drawBytes, given_hazard, given_show, given_withWindow, given_withBus, given_withScratch, given_setChan, given_dropTasks,
      given_received, given_sent, given_setAgent, given_goOn, given_goDs, given_raise, given_initState]
  all_goals first | rfl | ((repeat' split) <;> first | rfl | contradiction)

@[simp] theorem given_agentStep (g : Agent) : (s.given x y h q).agentStep g = (s.agentStep g).given x y h q := by
  simp only [State.agentStep, given_canStep, given_nextCode, given_doStmt]
  (repeat' split) <;> rfl

/-- A run whose condition does not look at the environment's data does not either. -/
theorem given_runWhile {p : State → Bool} (hp : ∀ t, p (State.given t x y h q) = p t) (n : Nat) (g : Agent) :
    ∀ t : State, State.runWhile p n g (t.given x y h q) = (State.runWhile p n g t).given x y h q := by
  induction n with
  | zero => exact fun _ => rfl
  | succ n ih =>
    intro t
    simp only [State.runWhile, hp, given_agentStep, ih]
    split <;> rfl

@[simp] theorem given_startNext (g : Agent) : (s.given x y h q).startNext g = (s.startNext g).given x y h q := by
  simp only [State.startNext, given_agent, given_setAgent, given_params]
  show (match nextRequest s.attached (s.agent g).pending with | none => _ | some (i, rest) => _) = _
  generalize nextRequest s.attached (s.agent g).pending = o
  cases o <;> rfl

@[simp] theorem given_begin (g : Agent) : (s.given x y h q).begin g = (s.begin g).given x y h q := by
  have h1 : (s.given x y h q).accepts g = s.accepts g := by
    simp only [State.accepts, State.isIdle, given_agent]
    rfl
  have h2 : (s.given x y h q).passReady = s.passReady := rfl
  simp only [State.begin, h1, h2, given_startNext, given_agent]
  (repeat' split) <;> rfl

end

/-- A run of `m + n` steps is a run of `m` and then one of `n`. -/
theorem runWhile_add (p : State → Bool) (m n : Nat) (g : Agent) :
    ∀ s, State.runWhile p (m + n) g s = State.runWhile p n g (State.runWhile p m g s) := by
  induction m with
  | zero => intro s; simp [State.runWhile]
  | succ m ih =>
    intro s
    rw [Nat.succ_add]
    simp only [State.runWhile]
    split
    · exact ih _
    · rename_i hp
      exact (runWhile_stop (Bool.eq_false_iff.mpr hp)).symm

/-- An operation of an agent that exists is a request of that agent (R228). -/
theorem exec_asked {s : State} {g : Agent} {i : Instr} (h : s.askedOf i = some g) : exec i s = .next (s.request g i) := by
  have on : ∀ c g', s.onChannel c g' = some g → s.requestOn c g' i = s.request g i := by
    intro c g' h
    unfold State.onChannel at h
    split at h <;> cases h
    rw [State.requestOn, if_pos ‹_›]
  cases i with
  | txSettle c =>
    simp only [State.askedOf] at h
    split at h
    · cases h
    · rename_i hn
      have hs : ¬(s.turn = .dispatcher ∧ s.dispatcherAt (.tx c .settle) = true) :=
        fun ⟨a, b⟩ => hn ⟨a, by simpa using (Bool.and_eq_true_iff.mp b).2⟩
      rw [exec, execTxSettle, if_neg hs, on _ _ h]
  | _ => first | (simp only [State.askedOf, Option.some.injEq] at h; subst h; rfl) | exact congrArg _ (on _ _ h) | cases h

end Sys2Proof.Machine
end

