-- ==== Sys2Proof/Laws/PerInstr.lean ====
section
/-! SUPPORT. A law of every operation as syntax, one lemma per constructor: what a well-formed operation puts on the bus begins
with a legal command byte and carries data (R101, R106, R109, R110). -/

namespace Sys2Proof.Laws.EncodedLegal

/-- A well-formed operation that encodes as a bus transaction has a command byte with bit 0 clear and a channel below `n`, and
at least one data byte. -/
def Statement (i : Instr) : Prop :=
  ∀ (n : Nat) (bytes : List Byte), n ≤ 8 → i.wf n = true → encode i = some (.bus bytes) →
    ∃ cmd data, bytes = cmd :: data ∧ isCommand n cmd = true ∧ data ≠ []

/-- The read command is a legal command (R102). -/
theorem readCmd_legal {n c r : Nat} (hn : n ≤ 8) (hc : c < n) (hr : r < 8) : isCommand n (readCmd c r) = true := by
  have key : cmdZ (readCmd c r) = false ∧ cmdChan (readCmd c r) = c := by
    have hc8 : c < 8 := by omega
    interval_cases c <;> interval_cases r <;> decide
  simp [isCommand, key, hc]

/-- The write command is a legal command (R103). -/
theorem writeCmd_legal {n c r : Nat} (hn : n ≤ 8) (hc : c < n) (hr : r < 8) : isCommand n (writeCmd c r) = true := by
  have key : cmdZ (writeCmd c r) = false ∧ cmdChan (writeCmd c r) = c := by
    have hc8 : c < 8 := by omega
    interval_cases c <;> interval_cases r <;> decide
  simp [isCommand, key, hc]

theorem read (c r : Nat) : Statement (.read c r) := by
  intro k bytes hk hw he
  simp only [Instr.wf, decide_eq_true_eq] at hw
  cases he
  exact ⟨_, _, rfl, readCmd_legal hk hw.1 hw.2, by simp⟩

theorem write (c r : Nat) (v : Byte) : Statement (.write c r v) := by
  intro k bytes hk hw he
  simp only [Instr.wf, decide_eq_true_eq] at hw
  cases he
  exact ⟨_, _, rfl, writeCmd_legal hk hw.1 hw.2, by simp⟩

theorem burstWrite (c startReg : Nat) (bytes : List Byte) : Statement (.burstWrite c startReg bytes) := by
  intro k out hk hw he
  simp only [Instr.wf, decide_eq_true_eq] at hw
  cases he
  exact ⟨_, _, rfl, writeCmd_legal (r := 0) hk hw.1 (by omega), List.ne_nil_of_length_pos hw.2.2.1⟩

theorem burstRead (c n : Nat) : Statement (.burstRead c n) := by
  intro k bytes hk hw he
  simp only [Instr.wf, decide_eq_true_eq] at hw
  cases he
  exact ⟨_, _, rfl, readCmd_legal (r := 0) hk hw.1 (by omega), by simp; omega⟩

theorem iirNoint (rest : BitVec 7) : Statement (.iirNoint rest) := by
  intro k bytes hk hw he
  simp [encode] at he

theorem iirMsi (hi : BitVec 4) : Statement (.iirMsi hi) := by
  intro k bytes hk hw he
  simp [encode] at he

theorem iirThre (hi : BitVec 4) : Statement (.iirThre hi) := by
  intro k bytes hk hw he
  simp [encode] at he

theorem iirRda (hi : BitVec 4) : Statement (.iirRda hi) := by
  intro k bytes hk hw he
  simp [encode] at he

theorem iirRls (hi : BitVec 4) : Statement (.iirRls hi) := by
  intro k bytes hk hw he
  simp [encode] at he

theorem iirRto (hi : BitVec 4) : Statement (.iirRto hi) := by
  intro k bytes hk hw he
  simp [encode] at he

theorem iirUnknown08 (hi : BitVec 4) : Statement (.iirUnknown08 hi) := by
  intro k bytes hk hw he
  simp [encode] at he

theorem iirUnknown0A (hi : BitVec 4) : Statement (.iirUnknown0A hi) := by
  intro k bytes hk hw he
  simp [encode] at he

theorem iirUnknown0E (hi : BitVec 4) : Statement (.iirUnknown0E hi) := by
  intro k bytes hk hw he
  simp [encode] at he

theorem update (c r : Nat) (mask value : Byte) : Statement (.update c r mask value) := by
  intro k bytes hk hw he
  cases he

theorem computeDivisor (clockHz target : Nat) : Statement (.computeDivisor clockHz target) := by
  intro k bytes hk hw he
  cases he

theorem setDivisor (c : Nat) (d : Half) : Statement (.setDivisor c d) := by
  intro k bytes hk hw he
  cases he

theorem lcrEncode (w : WordLen) (st : StopBits) (p : Parity) (brk : Bool) : Statement (.lcrEncode w st p brk) := by
  intro k bytes hk hw he
  cases he

theorem setLine (c : Nat) (p : LineParams) : Statement (.setLine c p) := by
  intro k bytes hk hw he
  cases he

theorem signal : Statement .signal := by
  intro k bytes hk hw he
  cases he

theorem dispatchPass : Statement .dispatchPass := by
  intro k bytes hk hw he
  cases he

theorem rxService (c : Nat) (src : RxSource) : Statement (.rxService c src) := by
  intro k bytes hk hw he
  cases he

theorem txService (c : Nat) : Statement (.txService c) := by
  intro k bytes hk hw he
  cases he

theorem msiService (c : Nat) : Statement (.msiService c) := by
  intro k bytes hk hw he
  cases he

theorem txSettle (c : Nat) : Statement (.txSettle c) := by
  intro k bytes hk hw he
  cases he

theorem beginTx (c : Nat) : Statement (.beginTx c) := by
  intro k bytes hk hw he
  cases he

theorem stopTx (c : Nat) : Statement (.stopTx c) := by
  intro k bytes hk hw he
  cases he

theorem stopRx (c : Nat) : Statement (.stopRx c) := by
  intro k bytes hk hw he
  cases he

theorem setMctrl (c : Nat) (bits : Byte) : Statement (.setMctrl c bits) := by
  intro k bytes hk hw he
  cases he

theorem getStatus (c : Nat) : Statement (.getStatus c) := by
  intro k bytes hk hw he
  cases he

theorem configFlow (c : Nat) (enabled : Bool) : Statement (.configFlow c enabled) := by
  intro k bytes hk hw he
  cases he

theorem rs485Get (c : Nat) : Statement (.rs485Get c) := by
  intro k bytes hk hw he
  cases he

theorem rs485Set (c : Nat) (cfg : Rs485) : Statement (.rs485Set c cfg) := by
  intro k bytes hk hw he
  cases he

theorem attach : Statement .attach := by
  intro k bytes hk hw he
  cases he

theorem startup (c : Nat) : Statement (.startup c) := by
  intro k bytes hk hw he
  cases he

theorem shutdown (c : Nat) : Statement (.shutdown c) := by
  intro k bytes hk hw he
  cases he

end Sys2Proof.Laws.EncodedLegal
end

