-- ==== Sys2Proof/Tests/Slice0.lean ====
section
/-! SUPPORT. Tests of the model's own: well-formedness, decoding of words written out from the spec, the spec's vectors (95_test_vectors),
and for every statement with hypotheses a state and operands that meet them. -/

namespace Sys2Proof.Tests

open Sys2Proof.Machine

/-! ## Well-formedness: one ill-formed term for each check -/

theorem test_wf_read_channel : Instr.wf 2 (.read 2 0) = false := by decide
theorem test_wf_read_offset : Instr.wf 2 (.read 1 8) = false := by decide
theorem test_wf_read_last : Instr.wf 2 (.read 1 7) = true := by decide
theorem test_wf_write_channel : Instr.wf 1 (.write 1 0 0#8) = false := by decide
theorem test_wf_write_offset : Instr.wf 2 (.write 0 8 0#8) = false := by decide
theorem test_wf_update_offset : Instr.wf 2 (.update 0 8 0#8 0#8) = false := by decide
theorem test_wf_burst_start : Instr.wf 2 (.burstWrite 0 3 [0#8]) = false := by decide
theorem test_wf_burst_empty : Instr.wf 2 (.burstWrite 0 0 []) = false := by decide
theorem test_wf_burst_long : Instr.wf 2 (.burstWrite 0 0 (List.replicate 17 0#8)) = false := by decide
theorem test_wf_burst_full : Instr.wf 2 (.burstWrite 1 0 (List.replicate 16 0#8)) = true := by decide
theorem test_wf_burst_channel : Instr.wf 2 (.burstWrite 2 0 [0#8]) = false := by decide
theorem test_wf_burstRead_empty : Instr.wf 2 (.burstRead 0 0) = false := by decide
theorem test_wf_burstRead_channel : Instr.wf 2 (.burstRead 2 1) = false := by decide
theorem test_wf_divisor_zero : Instr.wf 2 (.setDivisor 0 0#16) = false := by decide
theorem test_wf_divisor_channel : Instr.wf 2 (.setDivisor 2 1#16) = false := by decide
theorem test_wf_clock_zero : Instr.wf 2 (.computeDivisor 0 9600) = false := by decide
theorem test_wf_request_channel : Instr.wf 2 (.startup 2) = false := by decide

/-- A line setting as V-L2-LINE has it, at 115200 baud. -/
def line : LineParams :=
  { wordLen := 8, stopBits := 1, parity := some .off, baud := 115200, flow := false, readStatusMask := 0x1E#8, ignoreMask := 0#8 }

theorem test_wf_line : Instr.wf 2 (.setLine 1 line) = true := by decide
theorem test_wf_line_wordLen : Instr.wf 2 (.setLine 0 { line with wordLen := 9 }) = false := by decide
theorem test_wf_line_stopBits : Instr.wf 2 (.setLine 0 { line with stopBits := 3 }) = false := by decide
theorem test_wf_line_parity : Instr.wf 2 (.setLine 0 { line with parity := none }) = false := by decide

/-- Parameters with a value for each that the spec leaves OPEN: the vectors' values (95_test_vectors). -/
def params : Params :=
  { nCh := 2, clockHz := 22118400, lowWater := 4, fifoResetDelay := 9, initReadStatusMask := 0x1E#8, initIgnoreMask := 0#8
    dlabScope := .anyChannel, iir := Config.iir, mcr := Config.mcr, fcrReset := 0x06#8, fcrEnable := 0xC1#8
    stopRxMask := 0x05#8, powerDownSeq := [{ chan := 1, reg := 7, value := 0x5A#8 }] }

theorem test_params_admissible : params.admissible = true := by decide
theorem test_params_reset_admissible : State.reset.params.admissible = true := by decide
theorem test_params_no_channel : Params.admissible { params with nCh := 0 } = false := by decide
theorem test_params_nine_channels : Params.admissible { params with nCh := 9 } = false := by decide
theorem test_params_no_clock : Params.admissible { params with clockHz := 0 } = false := by decide
theorem test_params_equal_codes : Params.admissible { params with iir := { Config.iir with rto := 0x06#8 } } = false := by decide

/-! ## Decoding: words written out from 30_encoding and V-L2-ENC, V-L2-BUS-1 -/

/-- CH 001, REG 101, W 0, Z 0: read LSR of channel 1. -/
theorem test_decode_read : decode 2 [0b00110100#8, 0x60#8] = .ok (.read 1 5) := by decide
/-- CH 000, REG 011, W 1, Z 0: write LCR of channel 0. -/
theorem test_decode_write : decode 2 [0b00001110#8, 0x83#8] = .ok (.write 0 3 0x83#8) := by decide
/-- CH 001, REG 000, W 1, Z 0, two data bytes. -/
theorem test_decode_burstWrite : decode 2 [0b00100010#8, 0x41#8, 0x42#8] = .ok (.burstWrite 1 0 [0x41#8, 0x42#8]) := by decide
/-- CH 000, REG 000, W 0, Z 0, three data bytes. -/
theorem test_decode_burstRead : decode 2 [0b00000000#8, 1#8, 2#8, 3#8] = .ok (.burstRead 0 3) := by decide
/-- The largest commands, channel 7 offset 7 (V-L2-ENC-2). -/
theorem test_decode_corner : decode 8 [0xFC#8, 0#8] = .ok (.read 7 7) ∧ decode 8 [0xFE#8, 9#8] = .ok (.write 7 7 9#8) := by decide
theorem test_decode_bit_zero : decode 2 [0x15#8, 0#8] = .error (.bitZeroSet 0x15#8) := by decide
theorem test_decode_channel : decode 2 [0x40#8, 0#8] = .error (.channelOutOfRange 0x40#8) := by decide
theorem test_decode_no_data : decode 2 [0x14#8] = .error (.dataLength 0x14#8 0) := by decide
theorem test_decode_long_burst : decode 2 (0x02#8 :: List.replicate 17 0#8) = .error (.dataLength 0x02#8 17) := by decide
theorem test_decode_burst_elsewhere : decode 2 [0x0E#8, 1#8, 2#8] = .error (.dataLength 0x0E#8 2) := by decide
theorem test_decode_empty : decode 2 [] = .error .empty := by decide
theorem test_iir_noint : decodeIirRow 0b11000001#8 = .iirNoint 0b1100000#7 := by decide
theorem test_iir_msi : decodeIirRow 0b11000000#8 = .iirMsi 0b1100#4 := by decide
theorem test_iir_thre : decodeIirRow 0b11000010#8 = .iirThre 0b1100#4 := by decide
theorem test_iir_rda : decodeIirRow 0b11000100#8 = .iirRda 0b1100#4 := by decide
theorem test_iir_rls : decodeIirRow 0b11000110#8 = .iirRls 0b1100#4 := by decide
theorem test_iir_rto : decodeIirRow 0b11001100#8 = .iirRto 0b1100#4 := by decide
theorem test_iir_unknown08 : decodeIirRow 0b11001000#8 = .iirUnknown08 0b1100#4 := by decide
theorem test_iir_unknown0A : decodeIirRow 0b00001010#8 = .iirUnknown0A 0b0000#4 := by decide
theorem test_iir_unknown0E : decodeIirRow 0b00001110#8 = .iirUnknown0E 0b0000#4 := by decide
/-- The table's words, bit 0 first: LSR read of channel 0, and the RDA byte. -/
theorem test_table_words : decodeTableWord 8 0x14 = some (.read 0 5) ∧ decodeTableWord 8 0xC4 = some (.iirRda 0xC#4) := by decide

/-! ## The computed values (V-L2-UPD, V-L2-BAUD, V-L2-LCR, V-L1-7, V-L2-RX-1, V-L2-MDM) -/

theorem test_update_values : updateValue 0x0F#8 0x02#8 0x00#8 = 0x0D#8 ∧ updateValue 0x00#8 0x00#8 0xFF#8 = 0x00#8 ∧
    updateValue 0xA5#8 0xFF#8 0x3C#8 = 0x3C#8 ∧ updateValue 0x0D#8 0x02#8 0xFD#8 = 0x0D#8 := by decide

theorem test_divisor_rounds : computeDivisor 80 2 = .ok (2#16, 3) := by rfl
theorem test_divisor_range : computeDivisor 22118400 1382401 = .error (.baudOutOfRange 1382401) ∧
    computeDivisor 22118400 21 = .error (.baudOutOfRange 21) := by exact ⟨rfl, rfl⟩

theorem test_lcr_values : lcrEncode .seven .two .even false = 0x1E#8 ∧ lcrEncode .eight .one .space false = 0x3B#8 ∧
    lcrEncode .eight .one .mark true = 0x6B#8 ∧ lcrEncode .five .one .off false = 0x00#8 := by decide

theorem test_mctrl_values : (0x3F#8 &&& mctrlMask Config.mcr) ||| 0x08#8 = 0x1F#8 ∧ flowForced Config.mcr false 0x2A#8 = 0x0A#8 ∧
    flowForced Config.mcr true 0x08#8 = 0x2A#8 := by decide

/-- PE and FE, FE alone reported: parity counted, frame flagged (V-L2-RX-1). -/
theorem test_classify_reported : classifyFlag 0x0D#8 0x08#8 = .frame ∧ (classifyCounters 0x0D#8 {}).parity = 1 ∧
    (classifyCounters 0x0D#8 {}).frame = 0 := by decide
/-- A break clears PE before the ignore test; OE is not in it (V-L2-RX-1). -/
theorem test_classify_ignored : classifyForwarded 0x15#8 0x04#8 = true ∧ classifyForwarded 0x11#8 0x10#8 = false ∧
    classifyForwarded 0x03#8 0x02#8 = true := by decide

/-! ## One step on a small state -/

/-- Channel `c`, open. -/
def opened (c : Nat) : Chan := { Chan.init params c with life := .opened }

/-- A controller of two open channels after ATTACH, nothing pending. -/
def base : State :=
  { State.atAttach params with
    scratch := List.replicate 16 0#8, ch := [opened 0, opened 1], attached := true, quantum := 40 }

/-- `base` with the dispatcher at the control state `d`. -/
def atDs (d : DState) : State := { base with ds := d, turn := .dispatcher }

/-- `s` with the oracle's next answers, each a success of one byte. -/
def answered (s : State) (l : List Byte) : State := { s with oracle := l.map fun b => { ok := true, bytes := [b] } }

/-- `s` with channel 0 replaced. -/
def withChan0 (s : State) (x : Chan) : State := { s with ch := [x, opened 1] }

/-- The next state of an outcome, the state given where there is none. -/
def after (s : State) : Host.Outcome State Fault Refusal → State
  | .next t => t
  | .fault _ => s
  | .refused _ => s

/-- What an operation shows, from `s`. -/
def shown (s : State) (i : Instr) : List Obs := (after s (exec i s)).out

/-- A transaction as it is shown, command byte first. -/
def txn (g : Agent) (cmd : Byte) (data : List Byte) : Obs := .txn { agent := g, cmd := cmd, data := data, ok := true }

theorem test_read_returns : shown (answered base [0x60#8]) (.read 1 5) =
    [txn (.config 0) 0x34#8 [0x60#8], .result (.config 0) (.byte 0x60#8)] := by decide
theorem test_read_bad_channel : (after base (exec (.read 2 0) base)).faults = [.badAddress 2 (some 0)] := by decide
theorem test_write_sends : shown (answered base [0#8]) (.write 0 3 0x83#8) = [txn (.config 0) 0x0E#8 [0x83#8]] := by decide
theorem test_write_bad_offset : (after base (exec (.write 0 8 0#8) base)).faults = [.badAddress 0 (some 8)] := by decide
theorem test_burstWrite_sends : shown (answered base [0#8]) (.burstWrite 1 0 [0x41#8, 0x42#8]) =
    [txn (.config 0) 0x22#8 [0x41#8, 0x42#8]] := by decide
theorem test_burstWrite_start : (after base (exec (.burstWrite 0 3 [0#8]) base)).faults = [.badBurst 0 3 1] := by decide
theorem test_burstRead_empty : (after base (exec (.burstRead 0 0) base)).faults = [.badBurst 0 0 0] := by decide
theorem test_update_sends : shown (answered base [0xFF#8, 0#8]) (.update 0 1 0x05#8 0x00#8) =
    [txn (.config 0) 0x04#8 [0xFF#8], txn (.config 0) 0x06#8 [0xFA#8]] := by decide
/-- V-L2-DIV, 8E1 and DLAB already set. -/
theorem test_setDivisor_sends : shown (answered base [0x1B#8, 0#8, 0#8, 0#8, 0#8]) (.setDivisor 1 12#16) =
    [txn (.config 1) 0x2C#8 [0x1B#8], txn (.config 1) 0x2E#8 [0x9B#8], txn (.config 1) 0x26#8 [0x00#8],
      txn (.config 1) 0x22#8 [0x0C#8], txn (.config 1) 0x2E#8 [0x1B#8]] := by decide
/-- V-L2-HAZ-1: a dispatcher read inside the window. -/
theorem test_hazard_scope : State.hazard { base with dlabWindow := some (.config 0, 0) } .dispatcher 1 0x34#8 =
      some (.dlabHazard .dispatcher 0x34#8) ∧
    State.hazard { base with dlabWindow := some (.config 0, 0), params := { params with dlabScope := .sameChannel } }
      .dispatcher 1 0x34#8 = none := by decide
theorem test_signal_coalesces : (after base (exec .signal { base with sigPending := true })).sigPending = true := by decide
/-- V-L2-DSP-3: an overrun seen, an unknown code, then an empty channel. -/
theorem test_dispatchPass_logs : shown (answered { base with sigPending := true } [0x62#8, 0xC8#8, 0x60#8, 0xC1#8]) .dispatchPass =
    [txn .dispatcher 0x14#8 [0x62#8], .log (.overrunSeen 0), txn .dispatcher 0x08#8 [0xC8#8],
      .log (.unexpectedInterruptSource 0 0xC8#8), txn .dispatcher 0x34#8 [0x60#8], txn .dispatcher 0x28#8 [0xC1#8]] := by
  decide
/-- V-L2-RX-2: one byte on a line-status source with the FIFO-error bit set. -/
theorem test_rxService_error : shown (answered (atDs (.rx 1 .rls .start)) [0xF1#8, 0x00#8]) (.rxService 1 .rls) =
    [txn .dispatcher 0x34#8 [0xF1#8], txn .dispatcher 0x20#8 [0x00#8], .emit (.rxBatch 1 [(0x00#8, .brk)])] := by decide
/-- V-L2-RX-3: without it, the normal path. -/
theorem test_rxService_falls_through : shown (answered (atDs (.rx 0 .rls .start)) [0x61#8, 0x61#8, 0x41#8, 0x60#8])
    (.rxService 0 .rls) = [txn .dispatcher 0x14#8 [0x61#8], txn .dispatcher 0x14#8 [0x61#8], txn .dispatcher 0x00#8 [0x41#8],
      txn .dispatcher 0x14#8 [0x60#8], .emit (.rxBatch 0 [(0x41#8, .normal)])] := by decide
/-- V-L2-TX-1: the control byte goes first, stopped or not. -/
theorem test_txService_control : shown (answered (withChan0 (atDs (.tx 0 .start))
    { opened 0 with xChar := some 0x13#8, txQueue := [1#8], txStopped := true }) [0#8]) (.txService 0) =
      [txn .dispatcher 0x02#8 [0x13#8]] := by decide
/-- V-L2-TX-4: 17 queued, one burst of 16, one left, wake. -/
theorem test_txService_wakes : shown (answered (withChan0 (atDs (.tx 0 .start)) { opened 0 with txQueue := List.replicate 17 7#8 })
    [0#8]) (.txService 0) = [txn .dispatcher 0x02#8 (List.replicate 16 7#8), .emit (.wakeWriters 0)] := by decide
theorem test_msiService_caches : ((after base (exec (.msiService 1) (answered (atDs (.msi 1)) [0xB0#8]))).chan 1).msrCache =
    some 0xB0#8 := by decide
/-- V-L1-9: the transmitter not empty defers. -/
theorem test_txSettle_defers : shown (answered (withChan0 base { opened 0 with rs485 := { enabled := true, postDelay := 5 } })
    [0x20#8]) (.txSettle 0) = [txn (.stopTx 0) 0x14#8 [0x20#8]] := by decide
theorem test_txSettle_settles : shown (answered (withChan0 base { opened 0 with rs485 := { enabled := true, postDelay := 5 } })
    [0x60#8, 0x0F#8, 0#8]) (.txSettle 0) = [txn (.stopTx 0) 0x14#8 [0x60#8], .sleep (.stopTx 0) 5,
      txn (.stopTx 0) 0x04#8 [0x0F#8], txn (.stopTx 0) 0x06#8 [0x0D#8]] := by decide
/-- V-L2-TX-5: the pre-send delay once in a session. -/
theorem test_beginTx_delays : shown (answered (withChan0 base { opened 0 with rs485 := { enabled := true, preDelay := 3 } })
    [0x0D#8, 0#8]) (.beginTx 0) = [.sleep (.beginTx 0) 3, txn (.beginTx 0) 0x04#8 [0x0D#8], txn (.beginTx 0) 0x06#8 [0x0F#8]] := by
  decide
/-- V-L2-TX-6: deferred, and the channel lock is released. -/
theorem test_stopTx_releases : ((after base (exec (.stopTx 0)
    (answered (withChan0 base { opened 0 with rs485 := { enabled := true } }) [0x20#8]))).chan 0).chLock = .free := by decide
theorem test_stopRx_clears : shown (answered base [0x0F#8, 0#8]) (.stopRx 0) =
    [txn (.stopRx 0) 0x04#8 [0x0F#8], txn (.stopRx 0) 0x06#8 [0x0A#8]] := by decide
theorem test_setMctrl_drops_afe : shown (answered (withChan0 base { opened 0 with forced := 0x08#8 }) [0#8]) (.setMctrl 0 0x3F#8) =
    [txn (.setMctrl 0) 0x12#8 [0x1F#8]] := by decide
theorem test_getStatus_example : shown (withChan0 base { opened 0 with msrCache := some 0xB0#8 }) (.getStatus 0) =
    [.result (.config 0) (.lines { cts := true, dsr := false, ri := false, dcd := true })] := by decide
theorem test_getStatus_unknown : (after base (exec (.getStatus 0) base)).faults = [.msrUnknown 0] := by decide
/-- V-L1-10: the synthesized notification. -/
theorem test_configFlow_notifies : shown (answered (withChan0 base { opened 0 with forced := 0x08#8 }) [0#8]) (.configFlow 0 true) =
    [txn (.config 0) 0x12#8 [0x2A#8], .emit (.ctsChange 0 true)] := by decide
/-- V-L2-LINE: out of range, no transaction. -/
theorem test_setLine_rejects : shown base (.setLine 0 { line with baud := 2000000 }) =
    [.result (.config 0) (.rejected (.baudOutOfRange 2000000))] := by decide
/-- V-L2-RST-1. -/
theorem test_attach_sends : shown (answered { base with attached := false } (List.replicate 6 0#8)) .attach =
    [txn (.config 0) 0x06#8 [0#8], txn (.config 0) 0x12#8 [0#8], txn (.config 0) 0x0A#8 [6#8],
      txn (.config 0) 0x26#8 [0#8], txn (.config 0) 0x32#8 [0#8], txn (.config 0) 0x2A#8 [6#8]] := by decide
/-- V-L1-12. -/
theorem test_startup_sends : shown (answered base (List.replicate 5 0#8)) (.startup 1) =
    [txn (.config 1) 0x2A#8 [0x06#8], .sleep (.config 1) 9, txn (.config 1) 0x2A#8 [0xC1#8], txn (.config 1) 0x2E#8 [0x03#8],
      txn (.config 1) 0x26#8 [0x0D#8], txn (.config 1) 0x32#8 [0x08#8]] := by decide
/-- V-L2-RST-2, with one power-down write for channel 1. -/
theorem test_shutdown_sends : shown (answered base [0#8, 0#8]) (.shutdown 1) =
      [txn (.config 1) 0x32#8 [0x00#8], txn (.config 1) 0x3E#8 [0x5A#8]] ∧
    shown (answered base [0#8, 0#8]) (.shutdown 0) = [txn (.config 0) 0x06#8 [0x00#8], txn (.config 0) 0x12#8 [0x00#8]] := by
  decide

/-- `base` with the turn and the quantum given. -/
def turned (g : Agent) (q : Nat) : State := { base with turn := g, quantum := q }

/-- `s` with one input of this kind next. -/
def given (s : State) (k : InputKind) (g : Agent) (q : Nat) : State := { s with inbox := [{ kind := k, turn := g, quantum := q }] }

/-- U7: a record for channel 2 of two, by configuration agent 1. -/
theorem test_record_channel : (after base (step (given base (.bus [0x40#8, 0#8]) (.config 1) 9))).faults = [.badAddress 2 (some 0)] ∧
    ((after base (step (given base (.bus [0x40#8, 0#8]) (.config 1) 9))).agent (.config 1)).stopped = true := by decide
/-- U9, D8: a record of 17 bytes for THR. -/
theorem test_record_long : (after base (step (given base (.bus (0x02#8 :: List.replicate 17 0#8)) (.config 1) 9))).faults =
    [.badBurst 0 0 17] := by decide
/-- The dispatcher about to dispatch on the identification byte `v` of channel 1. -/
def justRead (v : Byte) : State := { atDs (.readIir 1) with disp := { code := [.iirDispatch 1], acc := [v] } }

/-- R174 dispatches on the byte read: a row of another byte is no step. -/
theorem test_iir_other_byte : after base (exec (.iirRda 0xC#4) (justRead 0xC1#8)) = justRead 0xC1#8 ∧
    (after base (exec (.iirNoint 0x60#7) (justRead 0xC1#8))).ds = .nextCh 1 := by decide
/-- R228: two requests of an idle agent that has not started the first: the first may be dropped. -/
theorem test_drop_coalesces : ((after base (step (given { base with tasks :=
    [{}, { setMctrl := { pending := [.setMctrl 1 1#8, .setMctrl 1 2#8] } }] } (.dropPending 0) (.setMctrl 1) 0))).agent
      (.setMctrl 1)).pending = [.setMctrl 1 2#8] := by decide
/-- R221: SET_MCTRL before its transaction, when CONFIG_FLOW has just forced AFE and RTS: the MCR write carries them. -/
theorem test_mcr_value_when_issued : (after base (step (given { withChan0 (answered base [0#8]) { opened 0 with mctrlReq := 0x01#8, forced := 0x2A#8 }
    with tasks := [{ setMctrl := { code := [.acquireBus, .txnMcr 0, .releaseBus] } }, {}] } .run (.setMctrl 0) 3))).out =
      [txn (.setMctrl 0) 0x12#8 [0x2B#8]] := by decide
/-- R246: ATTACH does not start a stopped agent again. -/
theorem test_attach_keeps_stopped : (after base (exec .attach { base with attached := false, disp := { stopped := true } })).disp.stopped =
    true := by decide
/-- R131, log 5: an operation of a channel that does not exist stops no agent. -/
theorem test_missing_channel : (after base (exec (.setLine 2 line) base)).faults = [.badAddress 2 none] ∧
    ((after base (exec (.setLine 2 line) base)).agent (.config 0)).stopped = false := by decide

/-- A table word is the very next step's operation: an LSR read of channel 0 takes one answer. -/
theorem test_withFetchWord_command : (after State.reset (step (State.reset.withFetchWord 8 0x14))).draws = 1 := by decide
/-- And an RDA byte sends the dispatcher to the receive service. -/
theorem test_withFetchWord_iir : (after State.reset (step (State.reset.withFetchWord 8 0xC4))).ds = .rx 0 .rda .start := by decide

/-! ## The statements' hypotheses are met: for each statement, a state and operands that meet all of them -/

theorem witness_CommandBytesMatchFormulas : ∃ c r : Nat, c < 8 ∧ r < 8 ∧ c = 7 ∧ r = 7 := ⟨7, 7, by decide⟩

theorem witness_DecodeOfEncodeIsSame :
    (∃ (n : Nat) (i : Instr) (w : Words), n ≤ 8 ∧ i.wf n = true ∧ encode i = some w ∧ i = .read 7 7) ∧
    (∃ (n : Nat) (i : Instr) (w : Words), n ≤ 8 ∧ i.wf n = true ∧ encode i = some w ∧ i = .burstWrite 7 0 (List.replicate 16 1#8)) ∧
    (∃ (n : Nat) (i : Instr) (w : Words), n ≤ 8 ∧ i.wf n = true ∧ encode i = some w ∧ i = .burstRead 0 1) ∧
    ∃ (n : Nat) (i : Instr) (w : Words), n ≤ 8 ∧ i.wf n = true ∧ encode i = some w ∧ i = .iirUnknown0E 15#4 :=
  ⟨⟨8, _, _, by decide, by decide, rfl, rfl⟩, ⟨8, _, _, by decide, by decide, rfl, rfl⟩,
    ⟨1, _, _, by decide, by decide, rfl, rfl⟩, ⟨2, _, _, by decide, by decide, rfl, rfl⟩⟩

theorem witness_EncodeOfDecodeIsSame :
    (∃ (n : Nat) (cmd : Byte) (data : List Byte) (i : Instr), decode n (cmd :: data) = .ok i ∧ cmd.getLsbD 1 = true) ∧
    ∃ (n : Nat) (cmd : Byte) (data : List Byte) (i : Instr), decode n (cmd :: data) = .ok i ∧ cmd.getLsbD 1 = false :=
  ⟨⟨2, 0x22#8, List.replicate 16 3#8, .burstWrite 1 0 (List.replicate 16 3#8), by decide⟩, ⟨2, 0x3C#8, [0#8], .read 1 7, by decide⟩⟩

/-- What BadRecordsStopOrFault asks of a record with a data phase out of range. -/
abbrev shortOrLong (s : State) (g : Agent) (q : Nat) (rest : List Input) (cmd : Byte) (data : List Byte) : Prop :=
  s.params.admissible = true ∧ s.inbox = { kind := .bus (cmd :: data), turn := g, quantum := q } :: rest ∧ cmd.getLsbD 0 = false ∧
    s.attached = true ∧ (s.agent g).stopped = false ∧ cmd.toNat / 32 < s.params.nCh ∧
    ¬(data.length = 1 ∨ cmd.toNat / 4 % 8 = 0 ∧ 1 ≤ data.length ∧ (cmd.getLsbD 1 = true → data.length ≤ 16))

theorem witness_BadRecordsStopOrFault :
    (∃ s : State, s.params.admissible = false) ∧
    (∃ (s : State) (g : Agent) (q : Nat) (rest : List Input), s.params.admissible = true ∧
      s.inbox = { kind := .bus [], turn := g, quantum := q } :: rest) ∧
    (∃ (s : State) (cmd : Byte) (data : List Byte) (g : Agent) (q : Nat) (rest : List Input), s.params.admissible = true ∧
      s.inbox = { kind := .bus (cmd :: data), turn := g, quantum := q } :: rest ∧ cmd.getLsbD 0 = true) ∧
    (∃ (s : State) (cmd : Byte) (data : List Byte) (g : Agent) (q : Nat) (rest : List Input), s.params.admissible = true ∧
      s.inbox = { kind := .bus (cmd :: data), turn := g, quantum := q } :: rest ∧ cmd.getLsbD 0 = false ∧ s.attached = true ∧
        (s.agent g).stopped = false ∧ cmd.toNat / 32 = s.params.nCh) ∧
    ∀ x ∈ [(0x02#8, []), (0x02#8, List.replicate 17 0#8), (0x0E#8, []), (0x0E#8, [1#8, 2#8]), (0x00#8, []), (0x34#8, [1#8, 2#8])],
      shortOrLong (given base (.bus (x.1 :: x.2)) .dispatcher 9) .dispatcher 9 [] x.1 x.2 :=
  ⟨⟨{ base with params := { params with nCh := 0 } }, by decide⟩,
    ⟨given base (.bus []) .dispatcher 9, .dispatcher, 9, [], by decide⟩,
    ⟨given base (.bus [0x01#8, 0#8]) .dispatcher 9, 0x01#8, [0#8], .dispatcher, 9, [], by decide⟩,
    ⟨given base (.bus [0x40#8, 0#8]) (.stopRx 1) 9, 0x40#8, [0#8], .stopRx 1, 9, [], by decide⟩, by decide⟩

theorem witness_StepRunsDecodedTransaction :
    ∃ (s : State) (bytes : List Byte) (g : Agent) (q : Nat) (rest : List Input) (i : Instr), s.params.admissible = true ∧
      s.inbox = { kind := .bus bytes, turn := g, quantum := q } :: rest ∧ decode s.params.nCh bytes = .ok i :=
  ⟨given base (.bus [0x34#8, 0#8]) (.config 1) 9, [0x34#8, 0#8], .config 1, 9, [], .read 1 5, by decide⟩

theorem witness_StepRunsRequest :
    ∃ (s : State) (g : Agent) (q : Nat) (rest : List Input) (i : Instr), s.params.admissible = true ∧
      s.inbox = { kind := .request i, turn := g, quantum := q } :: rest :=
  ⟨given base (.request (.startup 1)) (.config 1) 9, .config 1, 9, [], .startup 1, by decide⟩

theorem witness_StepRunsIdentification :
    ∃ (s : State) (c : Nat) (v : Byte) (more : List Stmt) (rest : List Input), s.params.admissible = true ∧
      s.params.iir = Config.iir ∧ s.attached = true ∧ s.disp.stopped = false ∧ s.disp.code = .iirDispatch c :: more ∧
      s.disp.acc = [v] ∧ s.inbox = { kind := .run, turn := .dispatcher, quantum := 1 } :: rest :=
  ⟨given (justRead 0xC6#8) .run .dispatcher 1,
    1, 0xC6#8, [], [], by decide⟩

theorem witness_CollaboratorActs :
    (∃ (s : State) (k : InputKind) (g : Agent) (q : Nat) (rest : List Input), s.params.admissible = true ∧
      s.inbox = { kind := k, turn := g, quantum := q } :: rest ∧ k = .queueTx 1 [1#8, 2#8]) ∧
    (∃ (s : State) (k : InputKind) (g : Agent) (q : Nat) (rest : List Input), s.params.admissible = true ∧
      s.inbox = { kind := k, turn := g, quantum := q } :: rest ∧ k = .setXChar 0 0x11#8) ∧
    ∃ (s : State) (k : InputKind) (g : Agent) (q : Nat) (rest : List Input), s.params.admissible = true ∧
      s.inbox = { kind := k, turn := g, quantum := q } :: rest ∧ k = .setTxStopped 1 true :=
  ⟨⟨given base (.queueTx 1 [1#8, 2#8]) .dispatcher 1, _, .dispatcher, 1, [], by decide, rfl, rfl⟩,
    ⟨given base (.setXChar 0 0x11#8) .dispatcher 1, _, .dispatcher, 1, [], by decide, rfl, rfl⟩,
    ⟨given base (.setTxStopped 1 true) .dispatcher 1, _, .dispatcher, 1, [], by decide, rfl, rfl⟩⟩

theorem witness_ReadReturnsByte :
    ∃ (s : State) (c r : Nat), s.ready s.turn = true ∧ c < s.params.nCh ∧ r < 8 ∧
      s.hazard s.turn c (readCmd c r) = none ∧ 5 ≤ s.quantum ∧ s.turn = .dispatcher ∧ c = 1 ∧ r = 7 :=
  ⟨turned .dispatcher 5, 1, 7, by decide⟩

theorem witness_WriteSendsValue :
    ∃ (s : State) (c r : Nat), s.ready s.turn = true ∧ c < s.params.nCh ∧ r < 8 ∧
      s.hazard s.turn c (writeCmd c r) = none ∧ 4 ≤ s.quantum ∧ s.turn = .beginTx 1 ∧ c = 1 ∧ r = 7 :=
  ⟨turned (.beginTx 1) 4, 1, 7, by decide⟩

theorem witness_UpdateReadsThenWrites :
    ∃ (s : State) (c r : Nat), s.ready s.turn = true ∧ c < s.params.nCh ∧ r < 8 ∧ s.hazard s.turn c (readCmd c r) = none ∧
      s.hazard s.turn c (writeCmd c r) = none ∧ 5 ≤ s.quantum ∧ c = 1 ∧ r = 7 :=
  ⟨turned (.stopRx 0) 5, 1, 7, by decide⟩

theorem witness_BurstWriteSendsBytes :
    (∃ (s : State) (c : Nat) (bytes : List Byte), s.ready s.turn = true ∧ c < s.params.nCh ∧ 1 ≤ bytes.length ∧
      bytes.length ≤ 16 ∧ s.hazard s.turn c (burstWriteCmd c) = none ∧ 4 ≤ s.quantum ∧ bytes.length = 16) ∧
    ∃ (s : State) (c : Nat) (bytes : List Byte), s.ready s.turn = true ∧ c < s.params.nCh ∧ 1 ≤ bytes.length ∧
      bytes.length ≤ 16 ∧ s.hazard s.turn c (burstWriteCmd c) = none ∧ 4 ≤ s.quantum ∧ bytes.length = 1 :=
  ⟨⟨turned .dispatcher 4, 1, List.replicate 16 7#8, by decide⟩, ⟨turned (.config 1) 4, 0, [7#8], by decide⟩⟩

theorem witness_BurstReadReturnsBytes :
    (∃ (s : State) (c n : Nat), s.ready s.turn = true ∧ c < s.params.nCh ∧ 1 ≤ n ∧
      s.hazard s.turn c (burstReadCmd c) = none ∧ 5 ≤ s.quantum ∧ n = 17) ∧
    ∃ (s : State) (c n : Nat), s.ready s.turn = true ∧ c < s.params.nCh ∧ 1 ≤ n ∧
      s.hazard s.turn c (burstReadCmd c) = none ∧ 5 ≤ s.quantum ∧ n = 1 :=
  ⟨⟨turned .dispatcher 5, 1, 17, by decide⟩, ⟨turned (.config 0) 5, 0, 1, by decide⟩⟩

theorem witness_TransactionIsShown :
    ∀ ok : Bool, ∃ (s : State) (c r : Nat) (b : Byte) (rest : List Draw), s.ready s.turn = true ∧ c < s.params.nCh ∧ r < 8 ∧
      s.oracle = { ok := ok, bytes := [b] } :: rest ∧ 5 ≤ s.quantum ∧ s.hazard s.turn c (readCmd c r) = none ∧
      s.hazard s.turn c (writeCmd c r) = none :=
  fun ok => ⟨{ turned (.config 1) 5 with oracle := [{ ok := ok, bytes := [9#8] }] }, 1, 7, 9#8, [], by revert ok; decide⟩

theorem witness_BadAddressStopsCaller :
    (∃ (s : State) (c r : Nat) (i : Instr), s.ready s.turn = true ∧ 1 ≤ s.quantum ∧
      ((¬(c < s.params.nCh ∧ r < 8) ∧ (i = .read c r ∨ (∃ v, i = .write c r v) ∨ ∃ mask value, i = .update c r mask value)) ∨
        (s.params.nCh ≤ c ∧ ((∃ bytes, i = .burstWrite c r bytes) ∨ (r = 0 ∧ ∃ n, i = .burstRead c n)))) ∧ c = 2 ∧ r = 7) ∧
    (∃ (s : State) (c r : Nat) (i : Instr), s.ready s.turn = true ∧ 1 ≤ s.quantum ∧
      ((¬(c < s.params.nCh ∧ r < 8) ∧ (i = .read c r ∨ (∃ v, i = .write c r v) ∨ ∃ mask value, i = .update c r mask value)) ∨
        (s.params.nCh ≤ c ∧ ((∃ bytes, i = .burstWrite c r bytes) ∨ (r = 0 ∧ ∃ n, i = .burstRead c n)))) ∧ c = 1 ∧ r = 8) ∧
    (∃ (s : State) (c r : Nat) (i : Instr), s.ready s.turn = true ∧ 1 ≤ s.quantum ∧
      ((¬(c < s.params.nCh ∧ r < 8) ∧ (i = .read c r ∨ (∃ v, i = .write c r v) ∨ ∃ mask value, i = .update c r mask value)) ∨
        (s.params.nCh ≤ c ∧ ((∃ bytes, i = .burstWrite c r bytes) ∨ (r = 0 ∧ ∃ n, i = .burstRead c n)))) ∧ c = 2 ∧ r = 8) ∧
    (∃ (s : State) (c r : Nat) (i : Instr), s.ready s.turn = true ∧ 1 ≤ s.quantum ∧
      ((¬(c < s.params.nCh ∧ r < 8) ∧ (i = .read c r ∨ (∃ v, i = .write c r v) ∨ ∃ mask value, i = .update c r mask value)) ∨
        (s.params.nCh ≤ c ∧ ((∃ bytes, i = .burstWrite c r bytes) ∨ (r = 0 ∧ ∃ n, i = .burstRead c n)))) ∧ c = 2 ∧ r = 3) ∧
    ∃ (s : State) (c r : Nat) (i : Instr), s.ready s.turn = true ∧ 1 ≤ s.quantum ∧
      ((¬(c < s.params.nCh ∧ r < 8) ∧ (i = .read c r ∨ (∃ v, i = .write c r v) ∨ ∃ mask value, i = .update c r mask value)) ∨
        (s.params.nCh ≤ c ∧ ((∃ bytes, i = .burstWrite c r bytes) ∨ (r = 0 ∧ ∃ n, i = .burstRead c n)))) ∧ c = 3 ∧ r = 0 :=
  ⟨⟨turned .dispatcher 1, 2, 7, .read 2 7, by decide, by decide, .inl ⟨by decide, .inl rfl⟩, rfl, rfl⟩,
    ⟨turned .dispatcher 1, 1, 8, .write 1 8 3#8, by decide, by decide, .inl ⟨by decide, .inr (.inl ⟨_, rfl⟩)⟩, rfl, rfl⟩,
    ⟨turned (.config 1) 1, 2, 8, .update 2 8 1#8 1#8, by decide, by decide, .inl ⟨by decide, .inr (.inr ⟨_, _, rfl⟩)⟩, rfl, rfl⟩,
    ⟨turned .dispatcher 1, 2, 3, .burstWrite 2 3 [], by decide, by decide, .inr ⟨by decide, .inl ⟨_, rfl⟩⟩, rfl, rfl⟩,
    ⟨turned .dispatcher 1, 3, 0, .burstRead 3 0, by decide, by decide, .inr ⟨by decide, .inr ⟨rfl, _, rfl⟩⟩, rfl, rfl⟩⟩

theorem witness_BadAddressStopsCaller_missing :
    (∃ (s : State) (c : Nat) (i : Instr), s.params.nCh ≤ c ∧ (i = .txSettle c ∧ s.ds ≠ .tx c .settle) ∧ s.attached = true ∧
      c = s.params.nCh) ∧
    ∃ (s : State) (c : Nat) (i : Instr), s.params.nCh ≤ c ∧ i = .startup c ∧ s.attached = false :=
  ⟨⟨atDs (.tx 0 .settle), 2, .txSettle 2, by decide⟩, ⟨{ base with attached := false }, 2, .startup 2, by decide⟩⟩

theorem witness_BadBurstStopsCaller :
    (∃ (s : State) (c k : Nat) (bytes : List Byte), s.ready s.turn = true ∧ c < s.params.nCh ∧ 1 ≤ s.quantum ∧
      (k ≠ 0 ∨ bytes.length = 0 ∨ 16 < bytes.length) ∧ k = 1 ∧ bytes.length = 1) ∧
    (∃ (s : State) (c k : Nat) (bytes : List Byte), s.ready s.turn = true ∧ c < s.params.nCh ∧ 1 ≤ s.quantum ∧
      (k ≠ 0 ∨ bytes.length = 0 ∨ 16 < bytes.length) ∧ k = 0 ∧ bytes = []) ∧
    ∃ (s : State) (c k : Nat) (bytes : List Byte), s.ready s.turn = true ∧ c < s.params.nCh ∧ 1 ≤ s.quantum ∧
      (k ≠ 0 ∨ bytes.length = 0 ∨ 16 < bytes.length) ∧ k = 0 ∧ bytes.length = 17 :=
  ⟨⟨turned .dispatcher 1, 1, 1, [0#8], by decide⟩, ⟨turned (.config 0) 1, 0, 0, [], by decide⟩,
    ⟨turned (.setMctrl 1) 1, 1, 0, List.replicate 17 0#8, by decide⟩⟩

/-- What DlabHazardStopsIntruder asks of the state when an operation on channel `c` is requested. -/
abbrev intrudes (s : State) (c c0 : Nat) (g0 : Agent) : Prop :=
  s.ready s.turn = true ∧ c < s.params.nCh ∧ 3 ≤ s.quantum ∧ s.dlabWindow = some (g0, c0) ∧ s.turn ≠ g0 ∧
    (s.params.dlabScope = .anyChannel ∨ c = c0)

/-- And of the operation. -/
abbrev busOp (c : Nat) (i : Instr) (cmd : Byte) : Prop :=
  (∃ r, r < 8 ∧ i = .read c r ∧ cmd = readCmd c r) ∨ (∃ r v, r < 8 ∧ i = .write c r v ∧ cmd = writeCmd c r) ∨
    (∃ r mask value, r < 8 ∧ i = .update c r mask value ∧ cmd = readCmd c r) ∨
    (∃ bytes, 1 ≤ bytes.length ∧ bytes.length ≤ 16 ∧ i = .burstWrite c 0 bytes ∧ cmd = burstWriteCmd c) ∨
    (∃ n, 1 ≤ n ∧ i = .burstRead c n ∧ cmd = burstReadCmd c)

theorem witness_DlabHazardStopsIntruder :
    (∀ m ∈ [.txnRead .read 1 7 1, .txnWrite .write 1 7 [1#8], .txnUpdate 1 7 1#8 1#8, .txnMcr 1],
      ∃ (s : State) (g g0 : Agent) (rest : List Stmt), s.canStep g = true ∧ s.busLock = .held g ∧ s.nextCode g = m :: rest ∧
        s.dlabWindow = some (g0, 0) ∧ g ≠ g0 ∧ (s.params.dlabScope = .anyChannel ∨ 1 = 0)) ∧
    (∃ (s : State) (c c0 : Nat) (g0 : Agent), intrudes s c c0 g0 ∧ c ≠ c0 ∧ busOp c (.read c 7) (readCmd c 7) ∧
      busOp c (.write c 7 1#8) (writeCmd c 7) ∧ busOp c (.update c 7 1#8 1#8) (readCmd c 7) ∧
      busOp c (.burstWrite c 0 (List.replicate 16 1#8)) (burstWriteCmd c) ∧ busOp c (.burstRead c 1) (burstReadCmd c)) ∧
    ∃ (s : State) (c c0 : Nat) (g0 : Agent), intrudes s c c0 g0 ∧ s.params.dlabScope = .sameChannel :=
  ⟨fun m _ => ⟨{ base with busLock := .held .dispatcher, dlabWindow := some (.config 0, 0), disp := { code := [m] } },
      .dispatcher, .config 0, [], rfl, rfl, rfl, rfl, by decide, .inl rfl⟩,
    ⟨{ turned .dispatcher 3 with dlabWindow := some (.config 0, 0) }, 1, 0, .config 0, by decide, by decide,
      .inl ⟨7, by decide, rfl, rfl⟩, .inr (.inl ⟨7, _, by decide, rfl, rfl⟩),
      .inr (.inr (.inl ⟨7, _, _, by decide, rfl, rfl⟩)), .inr (.inr (.inr (.inl ⟨_, by decide, by decide, rfl, rfl⟩))),
      .inr (.inr (.inr (.inr ⟨1, by decide, rfl, rfl⟩)))⟩,
    ⟨{ turned (.config 1) 3 with
        dlabWindow := some (.config 0, 0), params := { params with dlabScope := .sameChannel } }, 0, 0, .config 0, by decide⟩⟩

theorem witness_PostShutdownWriteStopsTask :
    (∃ (s : State) (c r : Nat), s.ready s.turn = true ∧ c < s.params.nCh ∧ r < 8 ∧ 5 ≤ s.quantum ∧ s.dlabWindow = none ∧
      (s.chan c).life = .shut ∧ (s.turn = .dispatcher ∨ s.turn.isDeferred = true) ∧ s.turn = .dispatcher) ∧
    (∃ (s : State) (c r : Nat), s.ready s.turn = true ∧ c < s.params.nCh ∧ r < 8 ∧ 5 ≤ s.quantum ∧ s.dlabWindow = none ∧
      (s.chan c).life = .shut ∧ (s.turn = .dispatcher ∨ s.turn.isDeferred = true) ∧ s.turn = .setMctrl 1) ∧
    ∃ (s : State) (c r d : Nat), s.ready s.turn = true ∧ c < s.params.nCh ∧ r < 8 ∧ 5 ≤ s.quantum ∧ s.dlabWindow = none ∧
      (s.chan c).life = .shut ∧ s.turn = .config d :=
  ⟨⟨withChan0 (turned .dispatcher 5) { opened 0 with life := .shut }, 0, 7, by decide⟩,
    ⟨withChan0 (turned (.setMctrl 1) 5) { opened 0 with life := .shut }, 0, 4, by decide⟩,
    ⟨withChan0 (turned (.config 1) 5) { opened 0 with life := .shut }, 0, 0, 1, by decide⟩⟩

theorem witness_PostShutdownWriteStopsTask_step :
    ∀ m ∈ [.txnWrite .burstWrite 0 0 [1#8], .txnUpdate 0 1 1#8 1#8, .txnMcr 0],
      ∃ (s : State) (g : Agent) (rest : List Stmt), s.canStep g = true ∧ s.busLock = .held g ∧ s.nextCode g = m :: rest ∧
        s.dlabWindow = none ∧ (s.chan 0).life = .shut ∧ (g = .dispatcher ∨ g.isDeferred = true) :=
  fun m _ => ⟨withChan0 { base with busLock := .held .dispatcher, disp := { code := [m] } } { opened 0 with life := .shut },
    .dispatcher, [], rfl, rfl, rfl, rfl, rfl, .inl rfl⟩

theorem witness_OnlyBusHolderTransacts :
    (∃ (s : State) (g : Agent), s.busLock = .held g ∧ s.nextCode g = [.txnWrite .write 1 7 [1#8]] ∧
      (s.agentStep g).out = s.out ++ [.txn { agent := g, cmd := 0x3E#8, data := [1#8], ok := true }]) ∧
    ∃ (s : State) (g : Agent), s.busLock ≠ .held g ∧ s.nextCode g = [.txnWrite .write 1 7 [1#8]] ∧
      (s.agentStep g).out = s.out :=
  ⟨⟨{ answered base [0#8] with busLock := .held .dispatcher, disp := { code := [.txnWrite .write 1 7 [1#8]] } },
      .dispatcher, by decide⟩,
    ⟨{ answered base [0#8] with disp := { code := [.txnWrite .write 1 7 [1#8]] } }, .dispatcher, by decide⟩⟩

/-- `base` with the dispatcher about to run `code` and the bus lock as given. -/
def busAt (code : List Stmt) (l : Lock) : State := { base with busLock := l, disp := { code := code } }

theorem witness_OnlyBusHolderTransacts_lock :
    (∃ (s : State) (g : Agent), (s.agentStep g).busLock ≠ s.busLock ∧ s.busLock = .free) ∧
    (∃ (s : State) (g : Agent), (s.agentStep g).busLock ≠ s.busLock ∧ s.busLock = .held g) ∧
    (∃ (s : State) (g h : Agent), (s.agentStep g).busLock ≠ s.busLock ∧ s.busLock = .held h ∧ g ≠ h ∧
      s.nextCode g = [.initState]) ∧
    (∃ (s : State) (g : Agent) (rest : List Stmt), s.nextCode g = .acquireBus :: rest ∧ s.canStep g = true ∧ s.busLock = .free) ∧
    (∃ (s : State) (g h : Agent) (rest : List Stmt), s.nextCode g = .acquireBus :: rest ∧ s.busLock = .held h ∧ g ≠ h) ∧
    (∃ (s : State) (g : Agent) (rest : List Stmt), s.nextCode g = .releaseBus :: rest ∧ s.canStep g = true ∧ s.busLock = .held g) ∧
    ∃ (s : State) (g : Agent) (rest : List Stmt), s.nextCode g = .releaseBus :: rest ∧ s.busLock ≠ .held g :=
  ⟨⟨busAt [.acquireBus] .free, .dispatcher, by decide⟩, ⟨busAt [.releaseBus] (.held .dispatcher), .dispatcher, by decide⟩,
    ⟨busAt [.initState] (.held (.config 1)), .dispatcher, .config 1, by decide⟩,
    ⟨busAt [.acquireBus] .free, .dispatcher, [], by decide⟩,
    ⟨busAt [.acquireBus] (.held (.config 1)), .dispatcher, .config 1, [], by decide⟩,
    ⟨busAt [.releaseBus] (.held .dispatcher), .dispatcher, [], by decide⟩,
    ⟨busAt [.releaseBus] (.held (.config 1)), .dispatcher, [], by decide⟩⟩

/-- R91: an agent that acquires the bus lock while another holds it does not take it. -/
theorem test_acquireBus_waits : (busAt [.acquireBus] (.held (.config 1))).agentStep .dispatcher =
    busAt [.acquireBus] (.held (.config 1)) := by decide

/-- `atDs d` with channel 0's lock as given and the dispatcher given two statements. -/
def lockAt (d : DState) (l : Lock) : State := given (withChan0 (atDs d) { opened 0 with chLock := l }) .run .dispatcher 2

theorem witness_ChannelLockIsExclusive :
    (∃ (s : State) (g : Agent) (c : Nat), ((s.agentStep g).chan c).chLock ≠ (s.chan c).chLock ∧ (s.chan c).chLock = .free) ∧
    (∃ (s : State) (g : Agent) (c : Nat), ((s.agentStep g).chan c).chLock ≠ (s.chan c).chLock ∧ (s.chan c).chLock = .held g) ∧
    (∃ (s : State) (g h : Agent) (c : Nat) (rest : List Stmt), s.nextCode g = .acquireCh c :: rest ∧ (s.chan c).chLock = .held h) ∧
    (∃ (s : State) (g : Agent) (c : Nat) (rest : List Stmt), s.nextCode g = .releaseCh c :: rest ∧ (s.chan c).chLock ≠ .held g) ∧
    ∀ x ∈ [(.txLock 0, .free), (.txLock 0, .held (.config 0)), (.tx 0 .done, .held .dispatcher)],
      (lockAt x.1 x.2).params.admissible = true ∧
      (lockAt x.1 x.2).inbox = { kind := .run, turn := .dispatcher, quantum := 2 } :: [] ∧
      (lockAt x.1 x.2).resting .dispatcher = true ∧ 0 < (lockAt x.1 x.2).ch.length ∧ (lockAt x.1 x.2).ds = x.1 ∧
      ((lockAt x.1 x.2).chan 0).chLock = x.2 :=
  ⟨⟨lockAt (.txLock 0) .free, .dispatcher, 0, by decide⟩, ⟨lockAt (.tx 0 .done) (.held .dispatcher), .dispatcher, 0, by decide⟩,
    ⟨lockAt (.txLock 0) (.held (.config 0)), .dispatcher, .config 0, 0, _, rfl, rfl⟩,
    ⟨lockAt (.tx 0 .done) (.held (.config 0)), .dispatcher, 0, _, rfl, by decide⟩, by decide⟩

/-- Channel 0's lock as given, every agent idle, a quantum of `q`. -/
def chanLocked (l : Lock) (q : Nat) : State := withChan0 (turned .dispatcher q) { opened 0 with chLock := l }

/-- The operations that run under the lock of channel 0, each with its agent. -/
def locking : List (Agent × Instr) :=
  [(.beginTx 0, .beginTx 0), (.stopTx 0, .stopTx 0), (.stopTx 0, .txSettle 0), (.config 0, .setDivisor 0 12#16),
    (.config 0, .configFlow 0 true), (.config 0, .startup 0), (.config 0, .setLine 0 line)]

/-- Two other agents may hold the lock; the first statements of SHUTDOWN of channel 0 are its IER write and its wait. -/
theorem witness_ChannelLockIsExclusive_waits :
    (∀ x ∈ locking, (chanLocked (.held (.setMctrl 0)) 1).ready x.1 = true ∧ (chanLocked .free 2).ready x.1 = true) ∧
    0 < (chanLocked .free 2).params.nCh ∧ 0 < (chanLocked .free 2).ch.length ∧
    ((chanLocked (.held (.setMctrl 0)) 1).chan 0).chLock = .held (.setMctrl 0) ∧ ((chanLocked .free 2).chan 0).chLock = .free ∧
    ¬((chanLocked .free 2).turn = .dispatcher ∧ (chanLocked .free 2).ds = .tx 0 .settle) ∧
    (5 ≤ line.wordLen ∧ line.wordLen ≤ 8 ∧ (line.stopBits = 1 ∨ line.stopBits = 2) ∧ line.parity ≠ none ∧
      computeDivisor (chanLocked .free 2).params.clockHz line.baud = .ok (12#16, 115200)) ∧
    (∀ h, h = .beginTx 0 ∨ h = .stopTx 0 ∨ h = .stopRx 0 ∨ h = .setMctrl 0 → ((chanLocked .free 6).agent h).code = []) ∧
    (chanLocked .free 6).dlabWindow = none ∧ (chanLocked .free 6).ready (.config 0) = true ∧
    (chanLocked (.held (.setMctrl 0)) 5).ready (.config 0) = true ∧ (turned .dispatcher 1).ready (.config 1) = true :=
  ⟨by decide, by decide, by decide, by decide, by decide, by decide, ⟨by decide, by decide, by decide, by decide, rfl⟩,
    by rintro h (rfl | rfl | rfl | rfl) <;> rfl, by decide⟩

/-- R92, R218: an operation that runs under a channel lock shows nothing while another agent holds it. -/
theorem test_channel_lock_waits : (after base (exec (.stopTx 0) (chanLocked (.held (.config 0)) 40))).out = [] ∧
    ((after base (exec (.stopTx 0) (chanLocked (.held (.config 0)) 40))).chan 0).chLock = .held (.config 0) := by decide

theorem witness_ComputeDivisorResult :
    (∃ (s : State) (clockHz target : Nat), s.ready s.turn = true ∧ 1 ≤ s.quantum ∧ target = 0 ∧ 0 < clockHz) ∧
    (∃ (s : State) (clockHz target : Nat), s.ready s.turn = true ∧ 1 ≤ s.quantum ∧ clockHz / (16 * target) = 65536) ∧
    ∃ (s : State) (clockHz target : Nat), s.ready s.turn = true ∧ 1 ≤ s.quantum ∧ clockHz / (16 * target) = 65535 :=
  ⟨⟨turned (.config 0) 1, 1, 0, by decide⟩, ⟨turned (.config 0) 1, 1048576, 1, by decide⟩,
    ⟨turned .dispatcher 1, 1048575, 1, by decide⟩⟩

theorem witness_DivisorWithinBounds :
    (∃ (clockHz target achieved : Nat) (d : Half), computeDivisor clockHz target = .ok (d, achieved) ∧ d = 0xFFFF#16) ∧
    ∃ (clockHz target achieved : Nat) (d : Half), computeDivisor clockHz target = .ok (d, achieved) ∧ d = 1#16 :=
  ⟨⟨1048575, 1, 1, 0xFFFF#16, rfl, rfl⟩, ⟨22118400, 1382400, 1382400, 1#16, rfl, rfl⟩⟩

theorem witness_SetDivisorSequence :
    (∃ (s : State) (c : Nat), s.ready (.config c) = true ∧ c < s.params.nCh ∧ c < s.ch.length ∧ (s.chan c).chLock = .free ∧
      25 ≤ s.quantum ∧ s.dlabWindow ≠ none) ∧
    (∃ (s : State) (c : Nat), s.ready (.config c) = true ∧ c < s.params.nCh ∧ c < s.ch.length ∧ (s.chan c).chLock = .free ∧
      25 ≤ s.quantum ∧ (s.chan c).life = .shut) ∧
    (∀ q ∈ [2, 23], ∃ (s : State) (c : Nat), s.ready (.config c) = true ∧ c < s.params.nCh ∧ c < s.ch.length ∧
      (s.chan c).chLock = .free ∧ 2 ≤ s.quantum ∧ s.quantum ≤ 23 ∧ s.quantum = q) ∧
    ∃ (s : State) (c : Nat) (h : Agent), s.ready (.config c) = true ∧ c < s.params.nCh ∧ c < s.ch.length ∧
      (s.chan c).chLock = .held h ∧ 1 ≤ s.quantum :=
  ⟨⟨{ turned .dispatcher 25 with dlabWindow := some (.config 0, 0) }, 1, by decide⟩,
    ⟨withChan0 (turned (.config 1) 25) { opened 0 with life := .shut }, 0, by decide⟩,
    fun q hq => ⟨turned .dispatcher q, 1, by fin_cases hq <;> decide⟩, ⟨chanLocked (.held .dispatcher) 1, 0, .dispatcher, by decide⟩⟩

/-- R156: with the last write of SET_DIVISOR issued the window is open still, and one statement later it is not. -/
theorem test_divisor_window :
    (after base (exec (.setDivisor 1 12#16) (answered (turned .dispatcher 23) (List.replicate 5 3#8)))).dlabWindow =
      some (.config 1, 1) ∧
    (after base (exec (.setDivisor 1 12#16) (answered (turned .dispatcher 24) (List.replicate 5 3#8)))).dlabWindow = none := by
  decide

theorem witness_LcrEncodeFields : ∃ s : State, s.ready s.turn = true ∧ 1 ≤ s.quantum := ⟨turned .dispatcher 1, by decide⟩

/-- What SetLineSequence asks of the operands and the state. -/
abbrev setsLine (s : State) (c : Nat) (p : LineParams) (par : Parity) (d : Half) (achieved : Nat) : Prop :=
  s.ready (.config c) = true ∧ c < s.params.nCh ∧ c < s.ch.length ∧ (s.chan c).chLock = .free ∧ s.dlabWindow = none ∧
    5 ≤ p.wordLen ∧ p.wordLen ≤ 8 ∧ (p.stopBits = 1 ∨ p.stopBits = 2) ∧ p.parity = some par ∧
    computeDivisor s.params.clockHz p.baud = .ok (d, achieved) ∧ s.params.mcr = Config.mcr ∧ 39 ≤ s.quantum

theorem witness_SetLineSequence :
    (∃ (s : State) (c : Nat) (p : LineParams) (par : Parity) (d : Half) (achieved : Nat), setsLine s c p par d achieved ∧
      p.flow = true ∧ p.wordLen = 8 ∧ p.stopBits = 1) ∧
    ∃ (s : State) (c : Nat) (p : LineParams) (par : Parity) (d : Half) (achieved : Nat), setsLine s c p par d achieved ∧
      p.flow = false ∧ p.wordLen = 5 ∧ p.stopBits = 2 ∧ par = .space :=
  ⟨⟨turned .dispatcher 39, 1, { line with flow := true }, .off, 12#16, 115200, ⟨by decide, by decide, by decide, by decide,
      by decide, by decide, by decide, by decide, by decide, rfl, by decide, by decide⟩, by decide⟩,
    ⟨turned .dispatcher 39, 0, { line with wordLen := 5, stopBits := 2, parity := some .space, baud := 1382400 }, .space, 1#16,
      1382400, ⟨by decide, by decide, by decide, by decide, by decide, by decide, by decide, by decide, by decide, rfl,
        by decide, by decide⟩, by decide⟩⟩

/-- R160, R163: the LCR byte of 7 bits, two stop bits, even parity. -/
theorem test_setLine_lcr : (shown (answered base [0#8]) (.setLine 0 { line with wordLen := 7, stopBits := 2, parity := some .even })).take 1 =
    [txn (.config 0) 0x0E#8 [0x1E#8]] := by decide

theorem witness_SetLineRejects :
    (∃ (s : State) (c : Nat) (p : LineParams), s.ready (.config c) = true ∧ c < s.params.nCh ∧ 1 ≤ s.quantum ∧
      ¬(5 ≤ p.wordLen ∧ p.wordLen ≤ 8 ∧ (p.stopBits = 1 ∨ p.stopBits = 2) ∧ p.parity ≠ none) ∧ p.wordLen = 9) ∧
    (∃ (s : State) (c : Nat) (p : LineParams), s.ready (.config c) = true ∧ c < s.params.nCh ∧ 1 ≤ s.quantum ∧
      ¬(5 ≤ p.wordLen ∧ p.wordLen ≤ 8 ∧ (p.stopBits = 1 ∨ p.stopBits = 2) ∧ p.parity ≠ none) ∧ p.parity = none) ∧
    ∃ (s : State) (c : Nat) (p : LineParams) (e : Rejection), s.ready (.config c) = true ∧ c < s.params.nCh ∧ 1 ≤ s.quantum ∧
      (5 ≤ p.wordLen ∧ p.wordLen ≤ 8 ∧ (p.stopBits = 1 ∨ p.stopBits = 2) ∧ p.parity ≠ none) ∧
      computeDivisor s.params.clockHz p.baud = .error e ∧ p.wordLen = 5 ∧ p.stopBits = 2 :=
  ⟨⟨turned .dispatcher 1, 1, { line with wordLen := 9 }, by decide⟩,
    ⟨turned .dispatcher 1, 1, { line with parity := none }, by decide⟩,
    ⟨turned .dispatcher 1, 1, { line with wordLen := 5, stopBits := 2, baud := 1382401 }, .baudOutOfRange 1382401,
      by decide, by decide, by decide, by decide, rfl, rfl, rfl⟩⟩

theorem witness_SignalsCoalesce :
    (∃ s : State, (s.ds ≠ .idle ∨ s.sigPending = false) ∧ s.ds ≠ .idle ∧ s.sigPending = true) ∧
    ∃ s : State, (s.ds ≠ .idle ∨ s.sigPending = false) ∧ s.ds = .idle :=
  ⟨⟨{ atDs (.msi 1) with sigPending := true }, by decide⟩, ⟨base, by decide⟩⟩

theorem witness_EmptyPassVisitsEveryChannel :
    ∃ (s : State) (xs : List ((Bool × Byte) × (Bool × Byte))) (rest : List Draw), s.ready .dispatcher = true ∧ s.ds = .idle ∧
      s.sigPending = true ∧ s.dlabWindow = none ∧ 1 ≤ s.params.nCh ∧ xs.length = s.params.nCh ∧
      (∀ x ∈ xs, x.2.2.getLsbD s.params.iir.noIntBit = true) ∧
      s.oracle = xs.flatMap (fun x => [answer x.1, answer x.2]) ++ rest ∧ 11 * s.params.nCh ≤ s.quantum :=
  ⟨{ turned .dispatcher 22 with
      sigPending := true
      oracle := [answer (true, 0x62#8), answer (true, 0xC1#8), answer (true, 0x60#8), answer (false, 0x01#8)] },
    [((true, 0x62#8), (true, 0xC1#8)), ((true, 0x60#8), (false, 0x01#8))], [], by decide, by decide, by decide, by decide, by decide,
    by decide, by intro x h; fin_cases h <;> rfl, rfl, by decide⟩

theorem witness_IdentificationDispatches :
    (∀ v : Byte, ∃ (s : State) (c : Nat) (more : List Stmt), s.attached = true ∧ s.disp.stopped = false ∧
      s.disp.code = .iirDispatch c :: more ∧ s.disp.acc = [v] ∧ s.params.iir = Config.iir) ∧
    0xC1#8 = 0x60#7 ++ 1#1 ∧ 0xC0#8 = 0xC#4 ++ 0x0#4 ∧ 0x02#8 = 0x0#4 ++ 0x2#4 ∧ 0xC4#8 = 0xC#4 ++ 0x4#4 ∧
    0x06#8 = 0x0#4 ++ 0x6#4 ∧ 0xCC#8 = 0xC#4 ++ 0xC#4 ∧ 0xC8#8 = 0xC#4 ++ 0x8#4 ∧ 0x0A#8 = 0x0#4 ++ 0xA#4 ∧
    0x0E#8 = 0x0#4 ++ 0xE#4 ∧ encode (.iirRda 0xC#4) = some (.iir 0xC4#8) ∧ 0xC4#8 ≠ 0xC1#8 :=
  ⟨fun v => ⟨justRead v, 1, [], rfl, rfl, rfl, rfl, rfl⟩, by decide⟩

theorem witness_RxServiceDrains :
    (∃ (s : State) (c : Nat) (src : RxSource) (first waits : List (Bool × Byte)) (xs : List ((Bool × Byte) × (Bool × Byte)))
        (last : Bool × Byte) (rest : List Draw), s.resting .dispatcher = true ∧ s.ds = .rx c src .start ∧
      c < s.params.nCh ∧ c < s.ch.length ∧ s.dlabWindow = none ∧
      (if src = .rls then ∃ x, first = [x] ∧ x.2.getLsbD 7 = false else first = []) ∧
      (∀ x ∈ waits, x.2.getLsbD 0 = false) ∧ (∀ x ∈ xs, x.1.2.getLsbD 0 = true) ∧ xs ≠ [] ∧ last.2.getLsbD 0 = false ∧
      s.oracle = (first ++ waits).map answer ++ xs.flatMap (fun x => [answer x.1, answer x.2]) ++ answer last :: rest ∧
      11 + 5 * waits.length + 10 * xs.length ≤ s.quantum ∧ src = .rls) ∧
    ∃ (s : State) (c : Nat) (src : RxSource) (first waits : List (Bool × Byte)) (xs : List ((Bool × Byte) × (Bool × Byte)))
        (last : Bool × Byte) (rest : List Draw), s.resting .dispatcher = true ∧ s.ds = .rx c src .start ∧
      c < s.params.nCh ∧ c < s.ch.length ∧ s.dlabWindow = none ∧
      (if src = .rls then ∃ x, first = [x] ∧ x.2.getLsbD 7 = false else first = []) ∧
      (∀ x ∈ waits, x.2.getLsbD 0 = false) ∧ (∀ x ∈ xs, x.1.2.getLsbD 0 = true) ∧ xs ≠ [] ∧ last.2.getLsbD 0 = false ∧
      s.oracle = (first ++ waits).map answer ++ xs.flatMap (fun x => [answer x.1, answer x.2]) ++ answer last :: rest ∧
      11 + 5 * waits.length + 10 * xs.length ≤ s.quantum ∧ src = .rto ∧ waits = [] :=
  ⟨⟨{ answered (atDs (.rx 1 .rls .start)) [0x61#8, 0x60#8, 0x63#8, 0x41#8, 0x60#8] with quantum := 26 },
      1, .rls, [(true, 0x61#8)], [(true, 0x60#8)], [((true, 0x63#8), (true, 0x41#8))], (true, 0x60#8), [],
      by decide, by decide, by decide, by decide, by decide, ⟨_, rfl, by decide⟩,
      by intro x h; fin_cases h; rfl, by intro x h; fin_cases h; rfl, by decide, by decide, rfl, by decide⟩,
    ⟨{ answered (atDs (.rx 0 .rto .start)) [0x61#8, 0x42#8, 0x00#8] with quantum := 21 },
      0, .rto, [], [], [((true, 0x61#8), (true, 0x42#8))], (true, 0x00#8), [],
      by decide, by decide, by decide, by decide, by decide, rfl,
      by simp, by intro x h; fin_cases h; rfl, by decide, by decide, rfl, by decide⟩⟩

theorem witness_RxLineErrorReadsOneByte :
    ∃ (s : State) (c : Nat) (x : (Bool × Byte) × (Bool × Byte)) (rest : List Draw), s.resting .dispatcher = true ∧
      s.ds = .rx c .rls .start ∧ c < s.params.nCh ∧ c < s.ch.length ∧ s.dlabWindow = none ∧ x.1.2.getLsbD 7 = true ∧
      s.oracle = answer x.1 :: answer x.2 :: rest ∧ 11 ≤ s.quantum ∧ x.1.2.getLsbD 0 = false :=
  ⟨{ answered (atDs (.rx 1 .rls .start)) [0x90#8, 0x00#8] with quantum := 11 }, 1, ((true, 0x90#8), (true, 0x00#8)), [],
    by decide⟩

theorem witness_TxServiceSendsControlByte :
    ∃ (s : State) (c : Nat) (b : Byte), s.resting .dispatcher = true ∧ s.ds = .tx c .start ∧ c < s.params.nCh ∧
      c < s.ch.length ∧ s.hazard .dispatcher c (writeCmd c 0) = none ∧ (s.chan c).xChar = some b ∧ 7 ≤ s.quantum ∧
      (s.chan c).txStopped = true ∧ (s.chan c).txQueue ≠ [] :=
  ⟨withChan0 { atDs (.tx 0 .start) with quantum := 7 }
    { opened 0 with xChar := some 0x13#8, txQueue := [1#8], txStopped := true }, 0, 0x13#8, by decide⟩

theorem witness_TxServiceSendsBurst :
    (∃ (s : State) (c : Nat), s.resting .dispatcher = true ∧ s.ds = .tx c .start ∧ c < s.params.nCh ∧ c < s.ch.length ∧
      s.hazard .dispatcher c (burstWriteCmd c) = none ∧ (s.chan c).xChar = none ∧ (s.chan c).txQueue ≠ [] ∧
      (s.chan c).txStopped = false ∧ 9 ≤ s.quantum ∧ (s.chan c).txQueue.length = 20) ∧
    ∃ (s : State) (c : Nat), s.resting .dispatcher = true ∧ s.ds = .tx c .start ∧ c < s.params.nCh ∧ c < s.ch.length ∧
      s.hazard .dispatcher c (burstWriteCmd c) = none ∧ (s.chan c).xChar = none ∧ (s.chan c).txQueue ≠ [] ∧
      (s.chan c).txStopped = false ∧ 9 ≤ s.quantum ∧ (s.chan c).txQueue.length = 1 :=
  ⟨⟨withChan0 { atDs (.tx 0 .start) with quantum := 9 } { opened 0 with txQueue := List.replicate 20 7#8 }, 0, by decide⟩,
    ⟨withChan0 { atDs (.tx 0 .start) with quantum := 9 } { opened 0 with txQueue := [7#8] }, 0, by decide⟩⟩

theorem witness_TxServiceSettles :
    (∃ (s : State) (c : Nat), s.resting .dispatcher = true ∧ s.ds = .tx c .start ∧ c < s.params.nCh ∧ c < s.ch.length ∧
      s.dlabWindow = none ∧ (s.chan c).life ≠ .shut ∧ (s.chan c).xChar = none ∧
      ((s.chan c).txQueue = [] ∨ (s.chan c).txStopped = true) ∧ 16 ≤ s.quantum ∧ (s.chan c).txQueue = []) ∧
    ∃ (s : State) (c : Nat), s.resting .dispatcher = true ∧ s.ds = .tx c .start ∧ c < s.params.nCh ∧ c < s.ch.length ∧
      s.dlabWindow = none ∧ (s.chan c).life ≠ .shut ∧ (s.chan c).xChar = none ∧
      ((s.chan c).txQueue = [] ∨ (s.chan c).txStopped = true) ∧ 16 ≤ s.quantum ∧ (s.chan c).txQueue ≠ [] ∧
      (s.chan c).rs485.enabled = true :=
  ⟨⟨{ atDs (.tx 1 .start) with quantum := 16 }, 1, by decide⟩,
    ⟨withChan0 { atDs (.tx 0 .start) with quantum := 16 }
      { opened 0 with txQueue := [7#8], txStopped := true, rs485 := { enabled := true } }, 0, by decide⟩⟩

theorem witness_MsiServiceCachesByte :
    ∃ (s : State) (c : Nat), s.resting .dispatcher = true ∧ s.ds = .msi c ∧ c < s.params.nCh ∧
      s.hazard .dispatcher c (readCmd c 6) = none ∧ 5 ≤ s.quantum :=
  ⟨{ atDs (.msi 1) with quantum := 5 }, 1, by decide⟩

/-- What TxSettleCases asks of the state when the stop-transmit task of channel `c` settles. -/
abbrev settles (s : State) (c : Nat) : Prop :=
  s.ready (.stopTx c) = true ∧ c < s.params.nCh ∧ c < s.ch.length ∧ (s.chan c).chLock = .free ∧ s.dlabWindow = none ∧
    (s.chan c).life ≠ .shut ∧ 15 ≤ s.quantum ∧ ¬(s.turn = .dispatcher ∧ s.ds = .tx c .settle)

theorem witness_TxSettleCases :
    (∃ (s : State) (c : Nat), settles s c ∧ s.turn = .dispatcher ∧ (s.chan c).rs485.enabled = false) ∧
    (∃ (s : State) (c : Nat), settles s c ∧ (s.chan c).rs485.enabled = true ∧ ((s.drawBytes 1).headD 0#8).has 6 = false) ∧
    (∃ (s : State) (c : Nat), settles s c ∧ (s.chan c).rs485.enabled = true ∧ ((s.drawBytes 1).headD 0#8).has 6 = true) ∧
    (∃ (s : State) (c : Nat) (h : Agent), s.ready (.stopTx c) = true ∧ c < s.params.nCh ∧ c < s.ch.length ∧
      ¬(s.turn = .dispatcher ∧ s.ds = .tx c .settle) ∧ (s.chan c).chLock = .held h ∧ 1 ≤ s.quantum) ∧
    ∃ (s : State) (c : Nat), s.turn = .dispatcher ∧ s.resting .dispatcher = true ∧ s.ds = .tx c .settle ∧ c < s.params.nCh ∧
      c < s.ch.length ∧ (s.chan c).chLock = .held .dispatcher ∧ s.dlabWindow = none ∧ (s.chan c).life ≠ .shut ∧ 14 ≤ s.quantum ∧
      (s.chan c).rs485.enabled = true ∧ ((s.drawBytes 1).headD 0#8).has 6 = true :=
  ⟨⟨turned .dispatcher 15, 1, by decide⟩,
    ⟨withChan0 (answered (turned (.stopTx 0) 15) [0x20#8]) { opened 0 with rs485 := { enabled := true } }, 0, by decide⟩,
    ⟨withChan0 (answered { atDs (.tx 0 .settle) with turn := .config 1, quantum := 15 } [0x40#8])
      { opened 0 with rs485 := { enabled := true } }, 0, by decide⟩,
    ⟨chanLocked (.held (.beginTx 0)) 1, 0, .beginTx 0, by decide⟩,
    ⟨withChan0 (answered { atDs (.tx 0 .settle) with quantum := 14 } [0x40#8])
      { opened 0 with chLock := .held .dispatcher, rs485 := { enabled := true } }, 0, by decide⟩⟩

theorem witness_BeginTxEnablesThre :
    (∃ (s : State) (c : Nat), s.ready (.beginTx c) = true ∧ c < s.params.nCh ∧ c < s.ch.length ∧ (s.chan c).chLock = .free ∧
      s.dlabWindow = none ∧ (s.chan c).life ≠ .shut ∧ 10 ≤ s.quantum ∧ (s.chan c).txActive = false ∧
      (s.chan c).rs485.enabled = true ∧ (s.chan c).rs485.preDelay = 1) ∧
    ∃ (s : State) (c : Nat), s.ready (.beginTx c) = true ∧ c < s.params.nCh ∧ c < s.ch.length ∧ (s.chan c).chLock = .free ∧
      s.dlabWindow = none ∧ (s.chan c).life ≠ .shut ∧ 10 ≤ s.quantum ∧ (s.chan c).txActive = true :=
  ⟨⟨withChan0 (turned .dispatcher 10) { opened 0 with rs485 := { enabled := true, preDelay := 1 } }, 0, by decide⟩,
    ⟨withChan0 (turned .dispatcher 10) { opened 0 with txActive := true }, 0, by decide⟩⟩

theorem witness_StopRxClearsEnables :
    ∃ (s : State) (c : Nat), s.ready (.stopRx c) = true ∧ c < s.params.nCh ∧ s.dlabWindow = none ∧
      (s.chan c).life ≠ .shut ∧ 5 ≤ s.quantum ∧ (s.chan c).chLock ≠ .free :=
  ⟨withChan0 (turned .dispatcher 5) { opened 0 with chLock := .held (.config 0) }, 0, by decide⟩

theorem witness_SetMctrlWritesForcedBits :
    (∃ (s : State) (c : Nat), s.ready (.setMctrl c) = true ∧ c < s.params.nCh ∧ c < s.ch.length ∧ s.dlabWindow = none ∧
      (s.chan c).life ≠ .shut ∧ s.params.mcr = Config.mcr ∧ 5 ≤ s.quantum ∧ (s.chan c).chLock ≠ .free) ∧
    ∃ (s : State) (g : Agent) (c : Nat) (rest : List Stmt), s.canStep g = true ∧ s.busLock = .held g ∧
      s.nextCode g = .txnMcr c :: rest ∧ s.hazard g c (writeCmd c 4) = none ∧ (s.chan c).forced = 0x2A#8 :=
  ⟨⟨withChan0 (turned .dispatcher 5) { opened 0 with chLock := .held (.config 0), forced := 0x2A#8 }, 0, by decide⟩,
    ⟨{ withChan0 base { opened 0 with forced := 0x2A#8 } with
        busLock := .held (.setMctrl 0), tasks := [{ setMctrl := { code := [.txnMcr 0, .releaseBus] } }, {}] },
      .setMctrl 0, 0, [.releaseBus], by decide⟩⟩

theorem witness_GetStatusIsCached :
    (∃ (s : State) (c : Nat) (m : Byte), s.ready (.config c) = true ∧ c < s.params.nCh ∧ 1 ≤ s.quantum ∧
      (s.chan c).msrCache = some m ∧ m = 0x10#8) ∧
    (∃ (s : State) (c : Nat), s.ready (.config c) = true ∧ c < s.params.nCh ∧ 1 ≤ s.quantum ∧
      (s.chan c).msrCache = some 0xB0#8) ∧
    ∃ (s : State) (c : Nat), s.ready (.config c) = true ∧ c < s.params.nCh ∧ 1 ≤ s.quantum ∧ (s.chan c).msrCache = none :=
  ⟨⟨withChan0 (turned .dispatcher 1) { opened 0 with msrCache := some 0x10#8 }, 0, 0x10#8, by decide⟩,
    ⟨withChan0 (turned .dispatcher 1) { opened 0 with msrCache := some 0xB0#8 }, 0, by decide⟩,
    ⟨turned .dispatcher 1, 1, by decide⟩⟩

theorem witness_ConfigFlowWritesMcr :
    ∃ (s : State) (c : Nat), s.ready (.config c) = true ∧ c < s.params.nCh ∧ c < s.ch.length ∧ (s.chan c).chLock = .free ∧
      s.dlabWindow = none ∧ s.params.mcr = Config.mcr ∧ 8 ≤ s.quantum ∧ (s.chan c).life = .shut ∧ (s.chan c).forced = 0x2A#8 :=
  ⟨withChan0 (turned .dispatcher 8) { opened 0 with life := .shut, forced := 0x2A#8 }, 0, by decide⟩

theorem witness_Rs485GetReturnsConfig :
    ∃ (s : State) (c : Nat), s.ready (.config c) = true ∧ c < s.params.nCh ∧ 1 ≤ s.quantum ∧ (s.chan c).rs485.preDelay = 4 :=
  ⟨withChan0 (turned .dispatcher 1) { opened 0 with rs485 := { enabled := true, preDelay := 4 } }, 0, by decide⟩

theorem witness_Rs485SetStoresOrRejects :
    ∃ (s : State) (c : Nat), s.ready (.config c) = true ∧ c < s.params.nCh ∧ c < s.ch.length ∧ (s.chan c).chLock = .free ∧
      4 ≤ s.quantum :=
  ⟨turned .dispatcher 4, 1, by decide⟩

/-- `base` with two requests pending for the modem-control task of channel 1. -/
def waiting : State := { base with tasks := [{}, { setMctrl := { pending := [.setMctrl 1 1#8, .setMctrl 1 2#8] } }] }

theorem witness_PendingRequests :
    (∃ (s : State) (g : Agent) (i : Instr), s.askedOf i = some g ∧ (s.isIdle g = false ∨ s.quantum = 0 ∨ (g = .dispatcher ∧ s.ds ≠ .idle)) ∧
      s.isIdle g = false ∧ i = .beginTx 1) ∧
    (∃ (s : State) (g : Agent) (i : Instr), s.askedOf i = some g ∧ (s.isIdle g = false ∨ s.quantum = 0 ∨ (g = .dispatcher ∧ s.ds ≠ .idle)) ∧
      s.isIdle g = true ∧ i = .startup 0) ∧
    (∃ (s : State) (g : Agent) (i : Instr), s.askedOf i = some g ∧ (s.isIdle g = false ∨ s.quantum = 0 ∨ (g = .dispatcher ∧ s.ds ≠ .idle)) ∧
      0 < s.quantum ∧ i = .read 1 7) ∧
    (∃ (s : State) (g : Agent) (k q : Nat) (rest : List Input), s.params.admissible = true ∧
      s.inbox = { kind := .dropPending k, turn := g, quantum := q } :: rest ∧ s.attached = true ∧ s.isIdle g = true ∧
      g.isDeferred = true ∧ k + 1 < (s.agent g).pending.length) ∧
    ∃ (s : State) (g : Agent) (i : Instr) (more : List Instr) (q : Nat) (rest : List Input), s.params.admissible = true ∧
      s.inbox = { kind := .run, turn := g, quantum := q } :: rest ∧ s.attached = true ∧ s.hasAgent g = true ∧ s.isIdle g = true ∧
      (g = .dispatcher → s.ds = .idle) ∧ (s.agent g).pending = i :: more ∧ 0 < q ∧ more ≠ [] :=
  ⟨⟨{ base with tasks := [{}, { beginTx := { code := [.acquireCh 1] } }] }, .beginTx 1, .beginTx 1, by decide⟩,
    ⟨turned .dispatcher 0, .config 0, .startup 0, by decide⟩,
    ⟨atDs (.msi 1), .dispatcher, .read 1 7, by decide⟩,
    ⟨given waiting (.dropPending 0) (.setMctrl 1) 0, .setMctrl 1, 0, 0, [], by decide⟩,
    ⟨given waiting .run (.setMctrl 1) 1, .setMctrl 1, .setMctrl 1 1#8, [.setMctrl 1 2#8], 1, [], by decide⟩⟩

theorem witness_AttachWritesEveryChannel :
    ∃ s : State, s.isIdle (.config 0) = true ∧ (s.agent (.config 0)).pending = [] ∧ 1 ≤ s.params.nCh ∧
      s.tasks.length = s.params.nCh ∧ 12 * s.params.nCh + 2 ≤ s.quantum ∧ s.attached = false ∧ s.disp.stopped = true :=
  ⟨{ State.reset with quantum := 26, disp := { stopped := true } }, by decide⟩

theorem witness_NothingStepsBeforeAttach : ∃ (s : State) (g : Agent), s.attached = false ∧ g ≠ .config 0 :=
  ⟨State.reset, .dispatcher, by decide⟩

theorem witness_StartupSequence :
    ∃ (s : State) (c : Nat), s.ready (.config c) = true ∧ c < s.params.nCh ∧ c < s.ch.length ∧ (s.chan c).chLock = .free ∧
      s.dlabWindow = none ∧ s.params.mcr = Config.mcr ∧ 26 ≤ s.quantum ∧ (s.chan c).life = .shut :=
  ⟨withChan0 (turned .dispatcher 26) { opened 0 with life := .shut }, 0, by decide⟩

theorem witness_ShutdownSequence :
    (∃ (s : State) (c : Nat), s.ready (.config c) = true ∧ c < s.params.nCh ∧ c < s.ch.length ∧ (s.chan c).chLock = .free ∧
      s.dlabWindow = none ∧
      (∀ g, g = .beginTx c ∨ g = .stopTx c ∨ g = .stopRx c ∨ g = .setMctrl c → (s.agent g).code = []) ∧
      (∀ w ∈ s.params.powerDownSeq, w.reg < 8) ∧ 13 + 4 * s.params.powerDownSeq.length ≤ s.quantum ∧ c = 0) ∧
    ∃ (s : State) (c : Nat), s.ready (.config c) = true ∧ c < s.params.nCh ∧ c < s.ch.length ∧ (s.chan c).chLock = .free ∧
      s.dlabWindow = none ∧
      (∀ g, g = .beginTx c ∨ g = .stopTx c ∨ g = .stopRx c ∨ g = .setMctrl c → (s.agent g).code = []) ∧
      (∀ w ∈ s.params.powerDownSeq, w.reg < 8) ∧ 13 + 4 * s.params.powerDownSeq.length ≤ s.quantum ∧ c = 1 ∧
      s.params.powerDownSeq ≠ [] :=
  ⟨⟨turned .dispatcher 17, 0, by decide, by decide, by decide, by decide, by decide,
      by rintro g (rfl | rfl | rfl | rfl) <;> rfl, by decide⟩,
    ⟨turned .dispatcher 17, 1, by decide, by decide, by decide, by decide, by decide,
      by rintro g (rfl | rfl | rfl | rfl) <;> rfl, by decide⟩⟩

/-- `base` with the receive-stop task of each channel in an operation and a request pending of it. -/
def stopping : State :=
  { base with tasks := List.replicate 2 { stopRx := { code := [.acquireBus, .releaseBus], pending := [.stopRx 0] } } }

theorem witness_ShutdownSequence_waits :
    ∀ x ∈ [(0, 5), (1, 1)], let s : State := { stopping with quantum := x.2 }
      s.ready (.config x.1) = true ∧ x.1 < s.params.nCh ∧ x.1 < s.ch.length ∧ s.dlabWindow = none ∧
        (s.agent (.stopRx x.1)).code ≠ [] ∧ (if x.1 = 0 then 5 else 1) ≤ s.quantum := by decide

/-- R279, R280: SHUTDOWN waits for a task in progress, whose pending request is dropped. -/
theorem test_shutdown_waits : (after base (exec (.shutdown 1) stopping)).out = [] ∧
    ((after base (exec (.shutdown 1) stopping)).chan 1).life = .opened ∧
    ((after base (exec (.shutdown 1) stopping)).agent (.stopRx 1)).pending = [] := by decide

/-- `base`, asked to write. -/
def asked : State := given base (.request (.write 1 7 3#8)) (.config 1) 9

theorem base_shape : base.Shape :=
  ⟨rfl, rfl, fun c h => by
    match c, h with
    | 0, _ => rfl
    | 1, _ => rfl
    | c + 2, h => exact absurd h (by simp [base, params, State.atAttach]), rfl⟩

theorem base_issued : base.Issued := by
  refine ⟨fun e h => absurd h (by simp [base, State.atAttach]), fun g => ?_⟩
  cases g with
  | dispatcher => trivial
  | beginTx c | stopTx c | stopRx c | setMctrl c | config c =>
    match c with
    | 0 => trivial
    | 1 => trivial
    | c + 2 => trivial

theorem witness_StepKeepsShape : ∃ s t : State, s.Shape ∧ step s = .next t ∧ s ≠ t :=
  ⟨asked, _, base_shape, rfl, by decide⟩

theorem witness_StepKeepsIssuedLegal : ∃ s t : State, s.Issued ∧ step s = .next t ∧ s.out ≠ t.out :=
  ⟨asked, _, base_issued, rfl, by decide⟩

theorem witness_FaultsAreNeverRemoved :
    ∃ (s t : State) (f : ModelFault), f ∈ s.faults ∧ step s = .next t ∧ t.faults ≠ s.faults :=
  ⟨given { base with faults := [.msrUnknown 1] } (.request (.write 1 8 3#8)) (.config 1) 9, _, .msrUnknown 1,
    by decide, rfl, by decide⟩

theorem witness_ParametersAreFixed : ∃ s t : State, step s = .next t ∧ s ≠ t := ⟨asked, _, rfl, by decide⟩

theorem witness_MsrCacheWrittenByMsiOnly :
    ∃ (s : State) (g : Agent) (c : Nat), ((s.agentStep g).chan c).msrCache ≠ (s.chan c).msrCache ∧ c = 1 :=
  ⟨{ base with disp := { code := [.cacheMsr 1], acc := [0xB0#8] } }, .dispatcher, 1, by decide⟩

theorem witness_QueueDrainedByTxOnly :
    ∃ (s : State) (g : Agent) (c : Nat), ((s.agentStep g).chan c).txQueue ≠ (s.chan c).txQueue ∧
      s.nextCode g = [.txBurstDone c 1] :=
  ⟨withChan0 { base with disp := { code := [.txBurstDone 0 1] } } { opened 0 with txQueue := [1#8, 2#8] }, .dispatcher, 0, by decide⟩

theorem witness_QuantumSplitsAnywhere :
    (∃ (s : State) (i : Instr) (g : Agent) (n : Nat) (rest : List Input), s.params.admissible = true ∧
      s.inbox = { kind := .run, turn := g, quantum := n } :: rest ∧ s.isIdle g = true ∧ (s.agent g).pending = [] ∧
      s.hasAgent g = true ∧ s.askedOf i = some g ∧ g ≠ .dispatcher ∧ i = .shutdown 1 ∧ n = 0) ∧
    ∃ (s : State) (g : Agent) (n : Nat) (rest : List Input), s.params.admissible = true ∧
      s.inbox = { kind := .run, turn := g, quantum := n } :: rest ∧ s.isIdle g = true ∧ (s.agent g).pending = [] ∧
      s.hasAgent g = true ∧ g = .dispatcher ∧ s.ds = .idle ∧ s.sigPending = true ∧ s.attached = true ∧ n = 1 :=
  ⟨⟨given base .run (.config 1) 0, .shutdown 1, .config 1, 0, [], by decide⟩,
    ⟨given { base with sigPending := true } .run .dispatcher 1, .dispatcher, 1, [], by decide⟩⟩

end Sys2Proof.Tests
end

section
/-! SUPPORT. The quantum: what an agent's run keeps, and how a later turn carries a run on (R10, R256). -/

namespace Sys2Proof.Machine

/-! ## What a run keeps -/

@[simp] theorem runWhile_params (p : State → Bool) (n : Nat) (g : Agent) (s : State) :
    (State.runWhile p n g s).params = s.params :=
  runWhile_keeps (Q := fun t => t.params = s.params) (fun _ _ h => by rw [agentStep_params, h]) p n g s rfl

/-! ## Nothing to start -/

/-- An agent has nothing to start: no request is pending of it (R228) and, if it is the dispatcher, no signal (R172). -/
def State.Unasked (g : Agent) (s : State) : Prop :=
  (s.agent g).pending = [] ∧ (g = .dispatcher → s.sigPending = false)

/-- A write of one agent's control state leaves an agent the pending list `l`, if it had it and, where it is the one written, is
given it. -/
theorem setAgent_pending_of {s : State} {g h : Agent} {a : AgentCtl} {l : List Instr} (hs : (s.agent h).pending = l)
    (ha : h = g → a.pending = l) : ((s.setAgent g a).agent h).pending = l := by
  cases hg : s.hasAgent g with
  | false => rw [setAgent_absent _ _ _ hg, hs]
  | true =>
    by_cases hh : h = g
    · rw [hh, State.setAgent_agent_self _ _ _ hg, ha hh]
    · rw [State.setAgent_agent_ne _ _ _ _ hh, hs]

/-- A write of an agent's control state that keeps its pending list keeps every pending list. -/
theorem setAgent_pending (s : State) (g h : Agent) (a : AgentCtl) (ha : a.pending = (s.agent g).pending) :
    ((s.setAgent g a).agent h).pending = (s.agent h).pending :=
  setAgent_pending_of rfl fun hh => hh ▸ ha

@[simp] theorem raise_pending (s : State) (g h : Agent) (f : ModelFault) :
    ((s.raise g f).agent h).pending = (s.agent h).pending := by
  simp only [State.raise, State.dropBus]
  split <;> simp [setAgent_pending]

@[simp] theorem raise_sigPending (s : State) (g : Agent) (f : ModelFault) : (s.raise g f).sigPending = s.sigPending := by
  simp only [State.raise, State.dropBus]
  split <;> simp

/-- SHUTDOWN's wait leaves the agents of a channel as they are, or drops the requests pending of its tasks (R280). -/
theorem dropTasks_chanAgents (s : State) (c d : Nat) :
    (s.dropTasks c).chanAgents d = s.chanAgents d ∨ (s.dropTasks c).chanAgents d = (s.chanAgents d).dropTasks := by
  simp only [State.dropTasks, State.chanAgents, getD_set_eq]
  split
  · rename_i h
    exact .inr (by rw [h.1])
  · exact .inl rfl

/-- SHUTDOWN's wait fills no pending list (R280). -/
theorem dropTasks_pending_nil {s : State} {h : Agent} (c : Nat) (hp : (s.agent h).pending = []) :
    ((s.dropTasks c).agent h).pending = [] := by
  cases h with
  | dispatcher => exact hp
  | config d => obtain hd | hd := dropTasks_chanAgents s c d <;> (rw [State.agent, hd]; exact hp)
  | _ d =>
    obtain hd | hd := dropTasks_chanAgents s c d <;> rw [State.agent, hd]
    · exact hp
    · rfl

/-- ATTACH's initialisation fills no pending list (R64). -/
theorem initState_pending_nil {s : State} {h : Agent} (g : Agent) (rest : List Stmt) (hp : (s.agent h).pending = []) :
    ((s.initState g rest).agent h).pending = [] := by
  refine setAgent_pending_of ?_ (fun hh => hh ▸ hp)
  cases h with
  | dispatcher => rfl
  | _ d =>
    simp only [State.agent, State.chanAgents]
    rw [show ({} : ChanAgents) = ChanAgents.atAttach {} from rfl, List.getD_map]
    rfl

/-- No statement gives an agent something to start: requests and signals are inputs (R171, R228). -/
theorem doStmt_unasked {s : State} {h : Agent} (g : Agent) (m : Stmt) (rest : List Stmt) (hs : s.Unasked h) :
    (s.doStmt g m rest).Unasked h := by
  obtain ⟨hp, hi⟩ := hs
  cases m
  case initState => exact ⟨initState_pending_nil g rest hp, fun _ => by simp [State.doStmt, State.initState]⟩
  case attachDone =>
    have ha : ({ s with attached := true }.agent h).pending = [] := by cases h <;> exact hp
    exact ⟨by simpa [State.doStmt, setAgent_pending] using ha, by simpa [State.doStmt] using hi⟩
  all_goals
    simp only [State.doStmt, State.txnRead, State.txnWrite, State.acquireBus, State.releaseBus, State.acquireCh,
      State.releaseCh, State.setLineStart, State.beginSession, State.settle, State.settleLsr, State.awaitTasks, State.getStatus,
      State.rs485Start, State.dispatchOn, State.classify, State.flush, State.txXCharDone, State.txBurst, State.txBurstDone,
      State.nextCh]
    (repeat' split) <;> simpa [State.Unasked, setAgent_pending, dropTasks_pending_nil, hp] using hi

theorem agentStep_unasked {s : State} {h : Agent} (g : Agent) (hs : s.Unasked h) : (s.agentStep g).Unasked h := by
  unfold State.agentStep
  split
  · split
    · exact hs
    · exact doStmt_unasked g _ _ hs
  · exact hs

/-- A run gives no agent anything to start. -/
theorem runWhile_unasked {s : State} {h : Agent} (p : State → Bool) (n : Nat) (g : Agent) (hs : s.Unasked h) :
    (State.runWhile p n g s).Unasked h :=
  runWhile_keeps (Q := State.Unasked h) (fun _ _ => agentStep_unasked _) p n g s hs

/-- An agent with nothing to start starts nothing (R172, R228). -/
theorem begin_unasked {s : State} {g : Agent} (hs : s.Unasked g) : s.begin g = s := by
  obtain ⟨hp, hi⟩ := hs
  have hr : ¬(g = .dispatcher ∧ s.passReady = true) := fun ⟨hg, hr⟩ => by simp [State.passReady, hi hg] at hr
  simp [State.begin, hp, hr]

/-! ## A turn -/

/-- The input that gives agent `g` a turn of `n`. -/
abbrev turnOf (g : Agent) (n : Nat) : Input := { kind := .run, turn := g, quantum := n }

theorem given_agentBusy (g : Agent) (x : List Input) (y q : Nat) (h : Agent) (s : State) :
    State.agentBusy g (s.given x y h q) = State.agentBusy g s := by
  rw [State.agentBusy, given_agent]
  rfl

/-- The run of a turn does not look at the environment's data (log 1). -/
theorem given_runBusy (s : State) (x : List Input) (y q n : Nat) (h g : Agent) :
    State.runWhile (State.agentBusy g) n g (s.given x y h q) = (State.runWhile (State.agentBusy g) n g s).given x y h q :=
  given_runWhile _ _ _ _ (given_agentBusy g x y q h) n g s

/-- A turn of `n` for agent `g`: the agent starts what it may and runs, unless `n` is 0 (R10). -/
theorem step_turnOf {s : State} (ha : s.params.admissible = true) (g h : Agent) (n y q : Nat) (rest : List Input) :
    step (s.given (turnOf g n :: rest) y h q) =
      .next ((if 0 < n then State.runWhile (State.agentBusy g) n g (s.begin g) else s).given rest (y + 1) g n) := by
  have hr : step (s.given (turnOf g n :: rest) y h q) = .next (s.given rest (y + 1) g n).runTurn := if_pos ha
  have ht : (s.given rest (y + 1) g n).runTurn =
      if 0 < n then State.runWhile (State.agentBusy g) n g ((s.given rest (y + 1) g n).begin g)
      else s.given rest (y + 1) g n := rfl
  rw [hr, ht, given_begin, given_runBusy]
  split <;> rfl

/-- A turn carries a run on: `m` steps and then a turn of `n` are `m + n` steps (R10, R256). -/
theorem step_turnOf_runWhile {s : State} {g : Agent} {m : Nat} (ha : s.params.admissible = true)
    (hb : (State.runWhile (State.agentBusy g) m g s).begin g = State.runWhile (State.agentBusy g) m g s)
    (h : Agent) (n y q : Nat) (rest : List Input) :
    step ((State.runWhile (State.agentBusy g) m g s).given (turnOf g n :: rest) y h q) =
      .next ((State.runWhile (State.agentBusy g) (m + n) g s).given rest (y + 1) g n) := by
  rw [step_turnOf (by simpa using ha), hb, runWhile_add]
  cases n with
  | zero => rfl
  | succ n => rw [if_pos n.succ_pos]

/-! ## A request in parts -/

section Requests

variable {s : State} {g : Agent} {i : Instr}

theorem agentBusy_of_ne (hg : g ≠ .dispatcher) : State.agentBusy g = State.hasCode g := by
  funext t
  simp [State.agentBusy, State.hasCode, hg]

@[simp] theorem startNext_params (s : State) (g : Agent) : (s.startNext g).params = s.params := by
  unfold State.startNext
  split <;> simp

@[simp] theorem enqueue_params (s : State) (g : Agent) (i : Instr) : (s.enqueue g i).params = s.params := by
  simp [State.enqueue]

@[simp] theorem given_enqueue (s : State) (x : List Input) (y q : Nat) (h g : Agent) (i : Instr) :
    (s.given x y h q).enqueue g i = (s.enqueue g i).given x y h q := by
  simp [State.enqueue]

theorem given_accepts (s : State) (x : List Input) (y q : Nat) (h g : Agent) :
    (s.given x y h q).accepts g = s.accepts g := by
  rw [State.accepts, State.isIdle, given_agent]
  rfl

/-- A request that joins the pending list leaves its agent as ready to start as it was (R228). -/
theorem enqueue_accepts (hg : s.hasAgent g = true) (i : Instr) : (s.enqueue g i).accepts g = s.accepts g := by
  simp [State.accepts, State.isIdle, State.enqueue, hg]

/-- Every agent but the dispatcher may start a request where it is idle. -/
theorem accepts_of_isIdle (hi : s.isIdle g = true) (hd : g ≠ .dispatcher) : s.accepts g = true := by
  simp [State.accepts, hi, hd]

/-- The agent's turn starts the request that waits for it (R228). -/
theorem begin_enqueue (hg : s.hasAgent g = true) (ha : s.accepts g = true) :
    (s.enqueue g i).begin g = (s.enqueue g i).startNext g := by
  rw [State.begin, enqueue_accepts hg, if_pos ha]
  simp [State.enqueue, hg]

/-- The only pending request is the next one, or, where ATTACH has not ended and it is another, none is (R228, R273). -/
theorem nextRequest_singleton (attached : Bool) (i : Instr) :
    nextRequest attached [i] = none ∨ nextRequest attached [i] = some (i, []) := by
  cases attached with
  | true => exact .inr rfl
  | false => by_cases hi : i = .attach <;> simp [nextRequest, hi, eq_comm]

/-- The only request of an agent either cannot start yet, or leaves nothing pending as it starts (R228, R273). -/
theorem startNext_enqueue (hg : s.hasAgent g = true) (hp : (s.agent g).pending = []) :
    (s.enqueue g i).startNext g = s.enqueue g i ∨ (((s.enqueue g i).startNext g).agent g).pending = [] := by
  have hq : ((s.enqueue g i).agent g).pending = [i] := by simp [State.enqueue, hg, hp]
  have he : (s.enqueue g i).hasAgent g = true := by simpa [State.enqueue] using hg
  rw [State.startNext, hq]
  obtain hn | hn := nextRequest_singleton (s.enqueue g i).attached i
  · exact .inl (by rw [hn])
  · exact .inr (by rw [hn, State.setAgent_agent_self _ _ _ he])

/-- An idle agent that has started its only request and run for a while starts nothing else (R228). -/
theorem begin_started (hg : s.hasAgent g = true) (hd : g ≠ .dispatcher) (hi : s.isIdle g = true)
    (hp : (s.agent g).pending = []) (m : Nat) :
    (State.runWhile (State.agentBusy g) m g ((s.enqueue g i).startNext g)).begin g =
      State.runWhile (State.agentBusy g) m g ((s.enqueue g i).startNext g) := by
  obtain hs | hs := startNext_enqueue (i := i) hg hp
  · have hc : State.agentBusy g (s.enqueue g i) = false := by
      simp only [State.isIdle, Bool.and_eq_true] at hi
      simp [agentBusy_of_ne hd, State.hasCode, State.enqueue, hg, hi.1]
    rw [hs, runWhile_stop hc, begin_enqueue hg (accepts_of_isIdle hi hd), hs]
  · exact begin_unasked (runWhile_unasked _ _ _ ⟨hs, fun h => absurd h hd⟩)

/-- A request of an idle agent, granted statements, starts at once and runs for them (R10, R228). -/
theorem request_given (hd : g ≠ .dispatcher) (hi : s.isIdle g = true) (x : List Input) (y : Nat) (h : Agent) {q : Nat}
    (hq : 0 < q) : (s.given x y h q).request g i =
      (State.runWhile (State.agentBusy g) q g ((s.enqueue g i).startNext g)).given x y h q := by
  have ha : (s.given x y h q).accepts g = true := by rw [given_accepts, accepts_of_isIdle hi hd]
  have hr : (s.given x y h q).request g i =
      State.runWhile (State.hasCode g) q g (((s.given x y h q).enqueue g i).startNext g) :=
    if_pos (Bool.and_eq_true_iff.mpr ⟨ha, decide_eq_true hq⟩)
  rw [hr, given_enqueue, given_startNext, ← agentBusy_of_ne hd, given_runBusy]

/-- A request granted no statement only joins the pending list (R228). -/
theorem request_given_zero (x : List Input) (y : Nat) (h : Agent) :
    (s.given x y h 0).request g i = (s.enqueue g i).given x y h 0 := by
  rw [request_unstarted (by rfl), given_enqueue]

/-- A request granted `m` statements and then a turn of `n` for its agent is the request granted `m + n` (R10, R256). -/
theorem step_request {m n : Nat} (ha : s.params.admissible = true) (hi : s.isIdle g = true)
    (hp : (s.agent g).pending = []) (hg : s.hasAgent g = true) (hd : g ≠ .dispatcher) (h : Agent) (y : Nat)
    (rest : List Input) :
    step ((s.given (turnOf g n :: rest) y h m).request g i) =
      .next (((s.given (turnOf g n :: rest) y h (m + n)).request g i).given rest (y + 1) g n) := by
  cases m with
  | zero =>
    rw [request_given_zero, step_turnOf (by simpa using ha), Nat.zero_add]
    cases n with
    | zero => rw [request_given_zero]; rfl
    | succ n => rw [if_pos n.succ_pos, begin_enqueue hg (accepts_of_isIdle hi hd), request_given hd hi _ _ _ n.succ_pos]; rfl
  | succ m =>
    rw [request_given hd hi _ _ _ m.succ_pos, request_given hd hi _ _ _ (by omega),
      step_turnOf_runWhile (by simpa using ha) (begin_started hg hd hi hp _)]
    rfl

end Requests

/-! ## A pass in parts -/

theorem agentBusy_dispatcher : State.agentBusy .dispatcher = State.inPass := by
  funext t
  simp [State.agentBusy, State.inPass, State.agent, Bool.or_comm]

/-- DISPATCH_PASS of a dispatcher that may start a pass: it starts and runs for the quantum granted (R10, R172). -/
theorem exec_dispatchPass_given {s : State} (hr : s.passReady = true) (x : List Input) (y q : Nat) (h : Agent) :
    exec .dispatchPass (s.given x y h q) =
      .next ((State.runWhile (State.agentBusy .dispatcher) q .dispatcher s.passStart).given x y h q) := by
  have he : exec .dispatchPass (s.given x y h q) =
      .next (State.runWhile State.inPass q .dispatcher (s.passStart.given x y h q)) := congrArg Host.Outcome.next (if_pos hr)
  rw [he, ← agentBusy_dispatcher, given_runBusy]

/-- A dispatcher that has started a pass has nothing else to start: the signal is taken (R172, R257). -/
theorem begin_pass {s : State} (hp : s.disp.pending = []) (m : Nat) :
    (State.runWhile (State.agentBusy .dispatcher) m .dispatcher s.passStart).begin .dispatcher =
      State.runWhile (State.agentBusy .dispatcher) m .dispatcher s.passStart :=
  begin_unasked (runWhile_unasked _ _ _ ⟨hp, fun _ => rfl⟩)

/-- An idle dispatcher with a signal pending may start a pass, once ATTACH has ended (R172, R273). -/
theorem passReady_of_idle {s : State} (hi : s.isIdle .dispatcher = true) (hd : s.ds = .idle) (hs : s.sigPending = true)
    (ha : s.attached = true) : s.passReady = true := by
  have hn : s.canStep .dispatcher = true := by
    simp only [State.isIdle, Bool.and_eq_true] at hi
    simp [State.canStep, hi.2, ha]
  simp [State.passReady, hi, hn, hd, hs]

/-- Settles O60: a turn carries on what the quantum cut off, because the agent has nothing else to start. -/
theorem quantumSplitsAnywhere : Obligations.QuantumSplitsAnywhere := by
  intro s i g m n rest ha hin hi hp hg hasked
  have hs : ∀ q, { s with quantum := q } = s.given (turnOf g n :: rest) s.inputs s.turn q := fun q => by rw [← hin]; rfl
  rw [hs, hs]
  obtain ⟨hask, hd⟩ | ⟨rfl, rfl, hds, hsig, hatt⟩ := hasked
  · have hx : ∀ q, exec i (s.given (turnOf g n :: rest) s.inputs s.turn q) =
        .next ((s.given (turnOf g n :: rest) s.inputs s.turn q).request g i) := fun q => exec_asked (by cases i <;> exact hask)
    exact ⟨_, _, hx m, hx (m + n), step_request ha hi hp hg hd _ _ _⟩
  · have hr := passReady_of_idle hi hds hsig hatt
    exact ⟨_, _, exec_dispatchPass_given hr _ _ m _, exec_dispatchPass_given hr _ _ (m + n) _,
      step_turnOf_runWhile (s := s.passStart) ha (begin_pass hp m) _ _ _ _ _⟩

end Sys2Proof.Machine
end

section
/-! SUPPORT. The shape of the state: what one statement leaves of the channels, the agents and the scratch buffer (R30, R32,
R36, R37, R38, R44), the state at reset (R64), and the collaborator's acts (R44, R45). -/

namespace Sys2Proof.Machine

/-! ## What a statement leaves of the channels, the agents and the scratch buffer -/

/-- What the statement `m` may make of the record `x` of channel `c`: the index stays (R37), the cached modem status changes in
the modem-status service only (R38), and the outgoing queue loses bytes from its front, at the end of a burst only (R44). -/
structure ChanKept (m : Stmt) (c : Nat) (x y : Chan) : Prop where
  index : y.index = x.index
  msrCache : y.msrCache = x.msrCache ∨ m = .cacheMsr c
  txQueue : y.txQueue = x.txQueue ∨ ∃ n, m = .txBurstDone c n ∧ y.txQueue = x.txQueue.drop n

@[simp] theorem ChanKept.refl (m : Stmt) (c : Nat) (x : Chan) : ChanKept m c x x := ⟨rfl, .inl rfl, .inl rfl⟩

/-- The modem-status service writes the cached byte (R210). -/
@[simp] theorem ChanKept.cacheMsr (c : Nat) (x : Chan) (v : Option Byte) :
    ChanKept (.cacheMsr c) c x { x with msrCache := v } := ⟨rfl, .inr rfl, .inl rfl⟩

/-- The end of a burst of `n` bytes takes them from the front of the queue, and counts them (R207). -/
@[simp] theorem ChanKept.txBurstDone (c n : Nat) (x : Chan) (k : Counters) :
    ChanKept (.txBurstDone c n) c x { x with txQueue := x.txQueue.drop n, counters := k } :=
  ⟨rfl, .inl rfl, .inr ⟨n, rfl, rfl⟩⟩

/-- A write of the three fields' old values keeps them, whatever the statement. -/
theorem ChanKept.of_eq {m : Stmt} {c : Nat} {x y : Chan} (hi : y.index = x.index) (hm : y.msrCache = x.msrCache)
    (hq : y.txQueue = x.txQueue) : ChanKept m c x y := ⟨hi, .inl hm, .inl hq⟩

/-- A write of one channel keeps of every channel what it keeps of the one written. -/
theorem ChanKept.setChan {m : Stmt} {s t : State} {c : Nat} {x : Chan} (ht : ∀ d, ChanKept m d (s.chan d) (t.chan d))
    (hx : ChanKept m c (s.chan c) x) (d : Nat) : ChanKept m d (s.chan d) ((t.setChan c x).chan d) := by
  rw [setChan_chan]
  split
  · rename_i hd
    rwa [hd.1]
  · exact ht d

/-- What the statement `m` leaves of the state's shape: as many channels and sets of agents, and a scratch buffer of 16 bytes
if it was one; and of each channel's record. -/
structure ShapeKept (m : Stmt) (s t : State) : Prop where
  ch : t.ch.length = s.ch.length
  tasks : t.tasks.length = s.tasks.length
  scratch : s.scratch.length = Config.fifoDepth → t.scratch.length = Config.fifoDepth
  chan : ∀ d, ChanKept m d (s.chan d) (t.chan d)

@[simp] theorem raise_ch (s : State) (g : Agent) (f : ModelFault) : (s.raise g f).ch = s.ch := by
  simp only [State.raise, State.dropBus]
  split <;> simp

@[simp] theorem raise_tasks_length (s : State) (g : Agent) (f : ModelFault) :
    (s.raise g f).tasks.length = s.tasks.length := by
  simp only [State.raise, State.dropBus]
  split <;> simp

@[simp] theorem raise_scratch (s : State) (g : Agent) (f : ModelFault) : (s.raise g f).scratch = s.scratch := by
  simp only [State.raise, State.dropBus]
  split <;> simp

theorem withAttached_chan (s : State) (b : Bool) (c : Nat) : { s with attached := b }.chan c = s.chan c := rfl

/-- A burst fits into the scratch buffer (R32, R206). -/
theorem burstBytes_length_le (s : State) (c : Nat) : (s.burstBytes c).length ≤ Config.fifoDepth := List.length_take_le _ _

/-- Every statement but ATTACH's initialisation keeps the shape of the state, and of each channel what `ChanKept` says: the two
that write its cached byte or its queue are `ChanKept.cacheMsr` and `ChanKept.txBurstDone`, and every other write of a channel
is of other fields (`ChanKept.of_eq`). -/
theorem doStmt_shapeKept {m : Stmt} (hm : m ≠ .initState) (s : State) (g : Agent) (rest : List Stmt) :
    ShapeKept m s (s.doStmt g m rest) := by
  cases m
  case initState => exact absurd rfl hm
  all_goals
    simp only [State.doStmt, State.txnRead, State.txnWrite, State.acquireBus, State.releaseBus, State.acquireCh,
      State.releaseCh, State.setLineStart, State.beginSession, State.settle, State.settleLsr, State.awaitTasks,
      State.getStatus, State.rs485Start, State.dispatchOn, State.classify, State.flush, State.txXCharDone, State.txBurst,
      State.txBurstDone, State.nextCh]
    (repeat' split) <;>
    exact ⟨by simp, by simp, fun h => by simp [h, burstBytes_length_le],
      fun d => by simp [ChanKept.setChan, ChanKept.of_eq, Chan.classify, withAttached_chan]⟩

/-- A step of an agent that does anything runs the agent's next statement. -/
theorem agentStep_cases (s : State) (g : Agent) :
    s.agentStep g = s ∨ ∃ m rest, s.nextCode g = m :: rest ∧ s.agentStep g = s.doStmt g m rest := by
  unfold State.agentStep
  split
  · split
    · exact .inl rfl
    · exact .inr ⟨_, _, ‹_›, rfl⟩
  · exact .inl rfl

/-- A step of an agent keeps what its statement keeps, or runs ATTACH's initialisation. -/
theorem agentStep_shapeKept (s : State) (g : Agent) :
    s.agentStep g = s ∨ (∃ rest, s.nextCode g = .initState :: rest ∧ s.agentStep g = s.initState g rest) ∨
      ∃ m rest, s.nextCode g = m :: rest ∧ ShapeKept m s (s.agentStep g) := by
  obtain hs | ⟨m, rest, hn, hs⟩ := agentStep_cases s g
  · exact .inl hs
  · by_cases hm : m = .initState
    · subst hm
      exact .inr (.inl ⟨rest, hn, hs⟩)
    · exact .inr (.inr ⟨m, rest, hn, hs ▸ doStmt_shapeKept hm s g rest⟩)

/-- Settles O58: of the statements that keep the shape, only the modem-status service's writes the cached byte. -/
theorem msrCacheWrittenByMsiOnly : Obligations.MsrCacheWrittenByMsiOnly := by
  intro s g c hc
  obtain hs | ⟨rest, hn, -⟩ | ⟨m, rest, hn, hk⟩ := agentStep_shapeKept s g
  · exact absurd (by rw [hs]) hc
  · exact ⟨rest, .inr hn⟩
  · obtain hm | rfl := (hk.chan c).msrCache
    · exact absurd hm hc
    · exact ⟨rest, .inl hn⟩

/-- Settles O59: of the statements that keep the shape, only the end of a burst writes the queue, and it drops its front. -/
theorem queueDrainedByTxOnly : Obligations.QueueDrainedByTxOnly := by
  intro s g c
  obtain hs | ⟨rest, hn, -⟩ | ⟨m, rest, hn, hk⟩ := agentStep_shapeKept s g
  · exact .inl (by rw [hs])
  · exact .inr ⟨0, rest, .inr hn⟩
  · obtain hq | ⟨n, rfl, hq⟩ := (hk.chan c).txQueue
    · exact .inl hq
    · exact .inr ⟨n, rest, .inl ⟨hn, hq⟩⟩

/-! ## The shape -/

/-- The channels at attach: each has its own index (R64). -/
theorem attachChans_getD (p : Params) {c : Nat} (hc : c < p.nCh) :
    ((List.range p.nCh).map (Chan.init p)).getD c default = Chan.init p c := by
  simp [List.getD_eq_getElem?_getD, hc]

/-- Two states with the same numbers of channels and agents, the same indices and scratch buffers of one length have one shape. -/
theorem State.Shape.of_frame {s t : State} (hs : s.Shape) (hp : t.params = s.params) (hch : t.ch.length = s.ch.length)
    (hta : t.tasks.length = s.tasks.length) (hi : ∀ c, (t.chan c).index = (s.chan c).index)
    (hsc : s.scratch.length = Config.fifoDepth → t.scratch.length = Config.fifoDepth) : t.Shape := by
  obtain ⟨hn, hm, hx, hl⟩ := hs
  exact ⟨by rw [hch, hp, hn], by rw [hta, hp, hm], fun c hc => by rw [hi, hx c (hp ▸ hc)], hsc hl⟩

theorem setAgent_shape {s : State} (hs : s.Shape) (g : Agent) (a : AgentCtl) : (s.setAgent g a).Shape :=
  hs.of_frame (by simp) (by simp) (by simp) (by simp) (by simp)

/-- A write of a channel that keeps its index keeps the shape (R37). -/
theorem setChan_shape {s : State} (hs : s.Shape) {c : Nat} {x : Chan} (hx : x.index = (s.chan c).index) :
    (s.setChan c x).Shape := by
  refine hs.of_frame rfl (by simp) rfl (fun d => ?_) id
  rw [setChan_chan]
  split
  · rename_i hd
    rw [hx, hd.1]
  · rfl

theorem raise_shape {s : State} (hs : s.Shape) (g : Agent) (f : ModelFault) : (s.raise g f).Shape :=
  hs.of_frame (by simp) (by simp) (by simp) (by simp) (by simp)

/-- ATTACH's initialisation gives the channels their shape again (R64). -/
theorem initState_shape {s : State} (hs : s.Shape) (g : Agent) (rest : List Stmt) : (s.initState g rest).Shape := by
  unfold State.initState
  refine setAgent_shape ?_ _ _
  obtain ⟨-, hm, -, hsc⟩ := hs
  exact ⟨by simp, by simpa using hm, fun c hc => congrArg Chan.index (attachChans_getD s.params hc), hsc⟩

theorem agentStep_shape {s : State} (hs : s.Shape) (g : Agent) : (s.agentStep g).Shape := by
  obtain he | ⟨rest, -, he⟩ | ⟨m, rest, -, hk⟩ := agentStep_shapeKept s g
  · rwa [he]
  · rw [he]
    exact initState_shape hs g rest
  · exact hs.of_frame (by simp) hk.ch hk.tasks (fun c => (hk.chan c).index) hk.scratch

/-- Every update that operations make outside the steps of an agent keeps the shape. -/
theorem kept_shape : Kept State.Shape where
  step _ g hs := agentStep_shape hs g
  signal _ _ hs := hs
  ds _ _ hs := hs
  unexpected _ _ _ hs := hs
  start _ g _ _ hs := setAgent_shape hs g _
  pend _ g _ hs := setAgent_shape hs g _
  dispatched _ _ _ hs _ := setAgent_shape hs .dispatcher _
  raise _ g f hs := raise_shape hs g f
  fault _ _ hs := hs

/-- Settles O53: the statements, the updates around them and the collaborator's acts all keep the shape. -/
theorem stepKeepsShape : Obligations.StepKeepsShape := fun _ _ hs h =>
  step_keeps kept_shape (fun _ hs => hs) (fun _ _ _ hs => setChan_shape hs rfl) (fun _ _ _ hs => setChan_shape hs rfl)
    (fun _ _ _ hs => setChan_shape hs rfl) hs h

/-! ## The state at reset -/

/-- Every agent is idle at attach, with nothing pending (R64). -/
@[simp] theorem atAttach_agent (p : Params) (g : Agent) : (State.atAttach p).agent g = {} := by
  have ha : ∀ c, (State.atAttach p).chanAgents c = {} := fun c => by
    simp only [State.chanAgents, State.atAttach, List.getD_eq_getElem?_getD, List.getElem?_replicate]
    split <;> rfl
  cases g with
  | dispatcher => rfl
  | _ c => rw [State.agent, ha]

theorem atAttach_chan (p : Params) {c : Nat} (hc : c < p.nCh) : (State.atAttach p).chan c = Chan.init p c :=
  attachChans_getD p hc

theorem atAttach_shape (p : Params) : (State.atAttach p).Shape :=
  ⟨by simp [State.atAttach], by simp [State.atAttach], fun _ hc => congrArg Chan.index (atAttach_chan p hc),
    by simp [State.atAttach]⟩

theorem atAttach_issued (p : Params) : (State.atAttach p).Issued :=
  ⟨fun _ h => absurd h List.not_mem_nil, fun g => by rw [atAttach_agent]; trivial⟩

/-- Settles O48: the reset table read off the state at attach, for this part's two channels. -/
theorem resetValues : Obligations.ResetValues :=
  ⟨rfl, rfl, rfl, rfl, rfl, rfl, fun g => by simp [State.reset, State.isIdle], fun _ hc => atAttach_chan Config.params hc⟩

/-- Settles O54: at attach the channels and agents are as the parameters say, nothing is shown and no agent has a statement. -/
theorem resetMeetsInvariants : Obligations.ResetMeetsInvariants := ⟨atAttach_shape _, atAttach_issued _, rfl⟩

/-! ## The collaborator's acts -/

/-- The next input is the first one chosen, if one is (R10). -/
theorem nextInput_of_inbox {s : State} {x : Input} {rest : List Input} (h : s.inbox = x :: rest) : s.nextInput = x := by
  rw [State.nextInput, h]

/-- The first input chosen is taken from the list, and its agent has the turn (R10). -/
theorem takeInput_of_inbox {s : State} {x : Input} {rest : List Input} (h : s.inbox = x :: rest) :
    s.takeInput = { s with inbox := rest, inputs := s.inputs + 1, turn := x.turn, quantum := x.quantum } := by
  rw [State.takeInput, nextInput_of_inbox h, h, List.tail_cons]

/-- Settles O10: each act is one write of the channel's record, on the state with the input taken. -/
theorem collaboratorActs : Obligations.CollaboratorActs := by
  intro s k g q rest ha hin
  rw [step, if_pos ha, nextInput_of_inbox hin, takeInput_of_inbox hin]
  refine ⟨?_, ?_, ?_⟩ <;> rintro c v rfl <;> rfl

end Sys2Proof.Machine
end

section
/-! SUPPORT. The locks: what one statement shows and leaves of the bus lock and the channel locks (R91, R130, R132), and the
operations that run under a channel lock (R92, R176). -/

namespace Sys2Proof.Machine

/-! ## Taking and giving back a lock -/

/-- `acquire ctl.busLock`, free (R91). -/
theorem acquireBus_free {s : State} (g : Agent) (rest : List Stmt) (hb : s.busLock = .free) :
    s.acquireBus g rest = (s.withBus (.held g)).setAgent g { s.agent g with code := rest } := by
  simp [State.acquireBus, hb]

/-- `acquire ctl.busLock`, held by whomever (R91). -/
theorem acquireBus_held {s : State} {h : Agent} (g : Agent) (rest : List Stmt) (hb : s.busLock = .held h) :
    s.acquireBus g rest = s := by
  simp [State.acquireBus, hb]

/-- `release ctl.busLock` by its holder (R91). -/
theorem releaseBus_holder {s : State} {g : Agent} (rest : List Stmt) (hb : s.busLock = .held g) :
    s.releaseBus g rest = (s.withBus .free).setAgent g { s.agent g with code := rest } := by
  simp [State.releaseBus, hb]

/-- `release ctl.busLock` by another agent (R91). -/
theorem releaseBus_other {s : State} {g : Agent} (rest : List Stmt) (hb : s.busLock ≠ .held g) :
    s.releaseBus g rest = s := by
  simp [State.releaseBus, hb]

/-- `acquire ch[c].chLock`, free (R91). -/
theorem acquireCh_free {s : State} {c : Nat} (g : Agent) (rest : List Stmt) (hl : (s.chan c).chLock = .free) :
    s.acquireCh g c rest =
      (s.setChan c { s.chan c with chLock := .held g }).setAgent g { s.agent g with code := rest } := by
  simp [State.acquireCh, hl]

/-- `acquire ch[c].chLock`, held by whomever (R91). -/
theorem acquireCh_held {s : State} {c : Nat} {h : Agent} (g : Agent) (rest : List Stmt)
    (hl : (s.chan c).chLock = .held h) : s.acquireCh g c rest = s := by
  simp [State.acquireCh, hl]

/-- `release ch[c].chLock` by its holder (R91). -/
theorem releaseCh_holder {s : State} {c : Nat} {g : Agent} (rest : List Stmt) (hl : (s.chan c).chLock = .held g) :
    s.releaseCh g c rest =
      (s.setChan c { s.chan c with chLock := .free }).setAgent g { s.agent g with code := rest } := by
  simp [State.releaseCh, hl]

/-- `release ch[c].chLock` by another agent (R91). -/
theorem releaseCh_other {s : State} {c : Nat} {g : Agent} (rest : List Stmt) (hl : (s.chan c).chLock ≠ .held g) :
    s.releaseCh g c rest = s := by
  simp [State.releaseCh, hl]

/-! ## What a statement shows and leaves of the locks -/

/-- What is shown is a transaction. -/
def Obs.isTxn : Obs → Bool
  | .txn _ => true
  | _ => false

/-- A transaction shows one record, whether or not it fails (R132, R133). -/
theorem txnObs_filter_isTxn (g : Agent) (k : BusKind) (c r : Nat) (cmd : Byte) (data : List Byte) (ok : Bool) :
    (txnObs g k c r cmd data ok).filter Obs.isTxn = [.txn { agent := g, cmd := cmd, data := data, ok := ok }] := by
  cases ok <;> rfl

/-- A lock goes from `x` to `y` as a step of agent `g` may move it: it stays, `g` takes it, or `g` gives it back (R91). -/
def Lock.Moved (g : Agent) (x y : Lock) : Prop := y = x ∨ (x = .free ∧ y = .held g) ∨ (x = .held g ∧ y = .free)

@[simp] theorem Lock.Moved.refl (g : Agent) (x : Lock) : Lock.Moved g x x := .inl rfl

/-- A move that changes the lock takes it or gives it back. -/
theorem Lock.Moved.of_ne {g : Agent} {x y : Lock} (h : Lock.Moved g x y) (hn : y ≠ x) :
    (x = .free ∧ y = .held g) ∨ (x = .held g ∧ y = .free) := h.resolve_left hn

/-- From `s` to `t` agent `g` shows no transaction, or it shows one, its own, and holds the bus lock before and after. -/
def State.Transacts (s : State) (g : Agent) (t : State) : Prop :=
  (∃ e, t.out.filter Obs.isTxn = s.out.filter Obs.isTxn ++ [.txn e] ∧ s.busLock = .held g ∧ e.agent = g ∧
    t.busLock = .held g) ∨ t.out.filter Obs.isTxn = s.out.filter Obs.isTxn

/-- What the statement `m` of agent `g` shows, and what it leaves of the bus lock and of each channel's lock: the latter moves only
in the two statements that name it. -/
structure LocksKept (m : Stmt) (g : Agent) (s t : State) : Prop where
  bus : Lock.Moved g s.busLock t.busLock
  shown : s.Transacts g t
  chan : ∀ d, (t.chan d).chLock = (s.chan d).chLock ∨
    ((m = .acquireCh d ∨ m = .releaseCh d) ∧ Lock.Moved g (s.chan d).chLock (t.chan d).chLock)

@[simp] theorem LocksKept.refl (m : Stmt) (g : Agent) (s : State) : LocksKept m g s s :=
  ⟨.refl g _, .inr rfl, fun _ => .inl rfl⟩

/-- A fault gives back the bus lock of the agent that raises it (R130). -/
@[simp] theorem raise_bus_moved (s : State) (g : Agent) (f : ModelFault) :
    Lock.Moved g s.busLock (s.raise g f).busLock := by
  by_cases hb : s.busLock = .held g
  · exact .inr (.inr ⟨hb, by simp [State.raise, State.dropBus, hb]⟩)
  · exact .inl (by simp [State.raise, State.dropBus, hb])

theorem raise_locksKept (m : Stmt) (s : State) (g : Agent) (f : ModelFault) : LocksKept m g s (s.raise g f) :=
  ⟨by simp, .inr (by simp), fun d => .inl (by simp)⟩

theorem txnRead_locksKept (m : Stmt) (s : State) (g : Agent) (k : BusKind) (c r n : Nat) (rest : List Stmt) :
    LocksKept m g s (s.txnRead g k c r n rest) := by
  unfold State.txnRead
  split
  · rename_i hb
    split
    · exact raise_locksKept m s g _
    · exact ⟨by simp, .inl ⟨_, by simp [txnObs_filter_isTxn]; rfl, hb, rfl, by simpa⟩, fun d => by simp⟩
  · exact .refl m g s

theorem txnWrite_locksKept (m : Stmt) (s : State) (g : Agent) (k : BusKind) (c r : Nat) (data : List Byte)
    (rest : List Stmt) : LocksKept m g s (s.txnWrite g k c r data rest) := by
  unfold State.txnWrite
  split
  · rename_i hb
    split
    · exact raise_locksKept m s g _
    · exact ⟨by simp, .inl ⟨_, by simp [txnObs_filter_isTxn]; rfl, hb, rfl, by simpa⟩, fun d => by simp⟩
  · exact .refl m g s

theorem acquireBus_locksKept (m : Stmt) (s : State) (g : Agent) (rest : List Stmt) :
    LocksKept m g s (s.acquireBus g rest) := by
  cases hb : s.busLock with
  | free =>
    rw [acquireBus_free g rest hb]
    exact ⟨.inr (.inl ⟨hb, by simp⟩), .inr (by simp), fun d => by simp⟩
  | held h =>
    rw [acquireBus_held g rest hb]
    exact .refl m g s

theorem releaseBus_locksKept (m : Stmt) (s : State) (g : Agent) (rest : List Stmt) :
    LocksKept m g s (s.releaseBus g rest) := by
  by_cases hb : s.busLock = .held g
  · rw [releaseBus_holder rest hb]
    exact ⟨.inr (.inr ⟨hb, by simp⟩), .inr (by simp), fun d => by simp⟩
  · rw [releaseBus_other rest hb]
    exact .refl m g s

/-- A write of a channel that keeps its lock keeps every channel's lock. -/
theorem setChan_chLock {s : State} {c : Nat} {x : Chan} (hx : x.chLock = (s.chan c).chLock) (d : Nat) :
    ((s.setChan c x).chan d).chLock = (s.chan d).chLock := by
  rw [setChan_chan]
  split
  · rename_i hd
    rw [hx, hd.1]
  · rfl

/-- A write of one channel that moves its lock leaves every other channel's. -/
theorem setChan_chLock_moved {m : Stmt} {s : State} {g : Agent} {c : Nat} {x : Chan} (hm : m = .acquireCh c ∨ m = .releaseCh c)
    (hx : Lock.Moved g (s.chan c).chLock x.chLock) (d : Nat) :
    ((s.setChan c x).chan d).chLock = (s.chan d).chLock ∨
      ((m = .acquireCh d ∨ m = .releaseCh d) ∧ Lock.Moved g (s.chan d).chLock ((s.setChan c x).chan d).chLock) := by
  rw [setChan_chan]
  split
  · rename_i hd
    rw [hd.1]
    exact .inr ⟨hm, hx⟩
  · exact .inl rfl

theorem acquireCh_locksKept (s : State) (g : Agent) (c : Nat) (rest : List Stmt) :
    LocksKept (.acquireCh c) g s (s.acquireCh g c rest) := by
  cases hl : (s.chan c).chLock with
  | free =>
    rw [acquireCh_free g rest hl]
    exact ⟨by simp, .inr (by simp), fun d => by simpa using setChan_chLock_moved (.inl rfl) (.inr (.inl ⟨hl, rfl⟩)) d⟩
  | held h =>
    rw [acquireCh_held g rest hl]
    exact .refl _ g s

theorem releaseCh_locksKept (s : State) (g : Agent) (c : Nat) (rest : List Stmt) :
    LocksKept (.releaseCh c) g s (s.releaseCh g c rest) := by
  by_cases hl : (s.chan c).chLock = .held g
  · rw [releaseCh_holder rest hl]
    exact ⟨by simp, .inr (by simp), fun d => by simpa using setChan_chLock_moved (.inr rfl) (.inr (.inr ⟨hl, rfl⟩)) d⟩
  · rw [releaseCh_other rest hl]
    exact .refl _ g s

/-- Every statement but ATTACH's initialisation keeps of the locks what `LocksKept` says. The transactions, the acquisitions and
the releases are the lemmas above; every other statement shows no transaction, and moves the bus lock only by a fault. -/
theorem doStmt_locksKept {m : Stmt} (hm : m ≠ .initState) (s : State) (g : Agent) (rest : List Stmt) :
    LocksKept m g s (s.doStmt g m rest) := by
  cases m
  case initState => exact absurd rfl hm
  case txnRead => exact txnRead_locksKept ..
  case txnWrite => exact txnWrite_locksKept ..
  case txnUpdate => exact txnWrite_locksKept ..
  case txnMcr => exact txnWrite_locksKept ..
  case acquireBus => exact acquireBus_locksKept ..
  case releaseBus => exact releaseBus_locksKept ..
  case acquireCh => exact acquireCh_locksKept ..
  case releaseCh => exact releaseCh_locksKept ..
  all_goals
    simp only [State.doStmt, State.setLineStart, State.beginSession, State.settle, State.settleLsr, State.awaitTasks,
      State.getStatus, State.rs485Start, State.dispatchOn, State.classify, State.flush, State.txXCharDone, State.txBurst,
      State.txBurstDone, State.nextCh]
    (repeat' split) <;>
    exact ⟨by simp, .inr (by simp [Obs.isTxn]),
      fun d => .inl (by simp [setChan_chLock, Chan.classify, withAttached_chan])⟩

/-- A step of an agent changes nothing, or runs ATTACH's initialisation, or keeps of the locks what its statement keeps. -/
theorem agentStep_locksKept (s : State) (g : Agent) :
    s.agentStep g = s ∨ (∃ rest, s.nextCode g = .initState :: rest ∧ s.agentStep g = s.initState g rest) ∨
      ∃ m, LocksKept m g s (s.agentStep g) := by
  obtain hs | ⟨m, rest, hn, hs⟩ := agentStep_cases s g
  · exact .inl hs
  · by_cases hm : m = .initState
    · subst hm
      exact .inr (.inl ⟨rest, hn, hs⟩)
    · exact .inr (.inr ⟨m, hs ▸ doStmt_locksKept hm s g rest⟩)

/-- Only the holder of the bus lock transacts (R132, R142); ATTACH's initialisation shows nothing. -/
theorem agentStep_transacts (s : State) (g : Agent) : s.Transacts g (s.agentStep g) := by
  obtain hs | ⟨rest, -, hs⟩ | ⟨m, hk⟩ := agentStep_locksKept s g
  · exact .inr (by rw [hs])
  · exact .inr (by simp [hs, State.initState])
  · exact hk.shown

/-- A step changes the bus lock only as its agent takes or gives it back, or at ATTACH's initialisation (R91, R130). -/
theorem agentStep_busLock (s : State) (g : Agent) (hne : (s.agentStep g).busLock ≠ s.busLock) :
    (s.busLock = .free ∧ (s.agentStep g).busLock = .held g) ∨ (s.busLock = .held g ∧ (s.agentStep g).busLock = .free) ∨
      ((s.agentStep g).busLock = .free ∧ ∃ rest, s.nextCode g = .initState :: rest) := by
  obtain hs | ⟨rest, hn, hs⟩ | ⟨m, hk⟩ := agentStep_locksKept s g
  · exact absurd (by rw [hs]) hne
  · exact .inr (.inr ⟨by simp [hs, State.initState], rest, hn⟩)
  · exact (hk.bus.of_ne hne).imp_right .inl

/-- A step changes a channel lock only as its agent takes or gives it back, or at ATTACH's initialisation (R91). -/
theorem agentStep_chLock (s : State) (g : Agent) (c : Nat) (hne : ((s.agentStep g).chan c).chLock ≠ (s.chan c).chLock) :
    ((s.chan c).chLock = .free ∧ ((s.agentStep g).chan c).chLock = .held g) ∨
      ((s.chan c).chLock = .held g ∧ ((s.agentStep g).chan c).chLock = .free) ∨ ∃ rest, s.nextCode g = .initState :: rest := by
  obtain hs | ⟨rest, hn, -⟩ | ⟨m, hk⟩ := agentStep_locksKept s g
  · exact absurd (by rw [hs]) hne
  · exact .inr (.inr ⟨rest, hn⟩)
  · obtain he | ⟨-, hm⟩ := hk.chan c
    · exact absurd he hne
    · exact (hm.of_ne hne).imp_right .inl

/-- A step whose statement would change nothing changes nothing, whether or not the agent may step. -/
theorem agentStep_fixed {s : State} {g : Agent} {m : Stmt} {rest : List Stmt} (hn : s.nextCode g = m :: rest)
    (hs : s.doStmt g m rest = s) : s.agentStep g = s := by
  obtain he | ⟨m', rest', hn', he⟩ := agentStep_cases s g
  · exact he
  · rw [hn] at hn'
    cases hn'
    rw [he, hs]

/-- Settles O21: what each statement shows and leaves of the bus lock is `LocksKept`, and the two that name it are read off. -/
theorem onlyBusHolderTransacts : Obligations.OnlyBusHolderTransacts := by
  refine ⟨fun s g => ⟨fun g1 g2 h1 h2 => Lock.held.inj (h1.symm.trans h2), agentStep_transacts s g⟩, agentStep_busLock,
    fun s g rest hn => ⟨fun hc hb => ?_, fun h hb => ?_⟩, fun s g rest hn => ⟨fun hc hb => ?_, fun hb => ?_⟩⟩
  · exact (agentStep_stmt hc hn).trans (acquireBus_free g rest hb)
  · exact agentStep_fixed hn (acquireBus_held g rest hb)
  · exact (agentStep_stmt hc hn).trans (releaseBus_holder rest hb)
  · exact agentStep_fixed hn (releaseBus_other rest hb)

end Sys2Proof.Machine
end

section
/-! SUPPORT. The operations that run under a channel lock (R92, R176): where each comes to its `acquire`, and what its agent holds
from there to its `release`. -/

namespace Sys2Proof.Machine

/-! ## The part under the lock -/

/-- What an operation runs under the lock of channel `c`: statements that name no channel lock, then the release, and after it no
more than its result (R92). -/
def LockedPart (c : Nat) : List Stmt → Prop
  | [] => False
  | m :: rest => (m = .releaseCh c ∧ ∀ m' ∈ rest, ∃ r, m' = .ret r) ∨ (m.plain = true ∧ LockedPart c rest)

/-- Plain statements before a locked part make a locked part. -/
theorem LockedPart.append {c : Nat} {new code : List Stmt} (hn : ∀ m ∈ new, m.plain = true) (h : LockedPart c code) :
    LockedPart c (new ++ code) := by
  induction new with
  | nil => exact h
  | cons m new ih => exact .inr ⟨hn m (by simp), ih fun m' hm => hn m' (by simp [hm])⟩

/-- The code of an operation acquires the lock of channel `c` and runs its locked part. -/
def Acquires (c : Nat) (code : List Stmt) : Prop := ∃ rest, code = .acquireCh c :: rest ∧ LockedPart c rest

theorem flowCode_plain (c : Nat) (en : Bool) : ∀ m ∈ flowCode c en, m.plain = true := by
  cases en <;> simp [flowCode, mcrCode, Stmt.plain]

theorem beginTxCode_acquires (c : Nat) : Acquires c (beginTxCode c) :=
  ⟨_, rfl, by simp [LockedPart, updateCode, Stmt.plain]⟩

theorem stopTxCode_acquires (c : Nat) : Acquires c (stopTxCode c) := ⟨_, rfl, by simp [LockedPart, Stmt.plain]⟩

theorem setDivisorRequest_acquires (p : Params) (c : Nat) (d : Half) : Acquires c (requestCode p (.setDivisor c d)) :=
  ⟨_, rfl, by simp [LockedPart, setDivisorCode, readCode, Stmt.plain]⟩

theorem configFlowCode_acquires (c : Nat) (en : Bool) : Acquires c (configFlowCode c en) :=
  ⟨_, rfl, .append (flowCode_plain c en) (by simp [LockedPart])⟩

theorem rs485LockedCode_acquires (c : Nat) (cfg : Rs485) : Acquires c (rs485LockedCode c cfg) :=
  ⟨_, rfl, by simp [LockedPart, Stmt.plain]⟩

theorem startupCode_acquires (p : Params) (c : Nat) : Acquires c (startupCode p c) :=
  ⟨_, rfl, by simp [LockedPart, writeCode, mcrCode, Stmt.plain]⟩

/-- The part of SET_LINE under the lock: the masks, the LCR byte, the divisor, the flow control and the release (R163). -/
theorem setLineLockedCode_acquires (c : Nat) (p : LineParams) (lcr : Byte) (d : Half) (achieved : Nat) :
    Acquires c (setLineLockedCode c p lcr d achieved) := by
  have hf : LockedPart c (flowCode c p.flow ++ [.releaseCh c, .ret (.baud achieved)]) :=
    .append (flowCode_plain c p.flow) (by simp [LockedPart])
  exact ⟨_, rfl, by simp [LockedPart, writeCode, setDivisorCode, readCode, Stmt.plain, hf]⟩

theorem powerDownCode_plain (p : Params) (c : Nat) : ∀ m ∈ powerDownCode p c, m.plain = true := by
  intro m hm
  obtain ⟨w, -, hw⟩ := List.mem_flatMap.mp hm
  have hp : ∀ m ∈ writeCode c w.reg w.value, m.plain = true := by simp [writeCode, Stmt.plain]
  exact hp m hw

/-- SHUTDOWN after its wait (R280). -/
def shutdownLockedCode (p : Params) (c : Nat) : List Stmt :=
  .acquireCh c :: writeCode c offMcr 0x00#8 ++ powerDownCode p c ++ [.setTxActive c false, .setLife c .shut, .releaseCh c]

/-- SHUTDOWN: its IER write, on channel 0 only, its wait, and the part under the lock (R280, R281). -/
theorem shutdownCode_eq (p : Params) (c : Nat) :
    shutdownCode p c = (if c = 0 then writeCode c offIer 0x00#8 else []) ++ .awaitTasks c :: shutdownLockedCode p c := by
  simp [shutdownCode, shutdownLockedCode]

theorem shutdownLockedCode_acquires (p : Params) (c : Nat) : Acquires c (shutdownLockedCode p c) := by
  have hp : LockedPart c (powerDownCode p c ++ [.setTxActive c false, .setLife c .shut, .releaseCh c]) :=
    .append (powerDownCode_plain p c) (by simp [LockedPart, Stmt.plain])
  exact ⟨_, rfl, by simp [LockedPart, writeCode, Stmt.plain, hp]⟩

/-! ## Holding the lock -/

/-- Agent `g` runs the locked part of an operation and holds the lock of channel `c`, or has given it back and has no more than its
result to return (R92). -/
def State.UnderLock (s : State) (g : Agent) (c : Nat) : Prop :=
  s.hasAgent g = true ∧ c < s.ch.length ∧
    (((s.chan c).chLock = .held g ∧ LockedPart c (s.agent g).code) ∨
      ((s.chan c).chLock = .free ∧ ∀ m ∈ (s.agent g).code, ∃ r, m = .ret r))

/-- An agent exists as long as the agents of its channel do. -/
theorem hasAgent_of_tasks_length {s t : State} (h : t.tasks.length = s.tasks.length) (g : Agent) :
    t.hasAgent g = s.hasAgent g := by
  cases g <;> simp [State.hasAgent, h]

/-- A plain statement moves no channel lock. -/
theorem doStmt_plain_chLock {m : Stmt} (hm : m.plain = true) (s : State) (g : Agent) (rest : List Stmt) (c : Nat) :
    ((s.doStmt g m rest).chan c).chLock = (s.chan c).chLock := by
  have hi : m ≠ .initState := by rintro rfl; cases hm
  obtain h | ⟨rfl | rfl, -⟩ := (doStmt_locksKept hi s g rest).chan c
  · exact h
  · cases hm
  · cases hm

/-- A plain statement of a locked part: the agent is in the locked part still. -/
theorem doStmt_plain_lockedPart {s : State} {g : Agent} {c : Nat} {m : Stmt} {rest : List Stmt} (hg : s.hasAgent g = true)
    (hc : (s.agent g).code = m :: rest) (hm : m.plain = true) (hr : LockedPart c rest) :
    LockedPart c ((s.doStmt g m rest).agent g).code := by
  obtain h | ⟨new, h, hn⟩ := doStmt_code s g m rest hg hc hm
  · rw [h]
    exact .inr ⟨hm, hr⟩
  · rw [h]
    exact .append hn hr

/-- The release of a locked part gives the lock back and leaves no more than the result (R91). -/
theorem releaseCh_underLock {s : State} {g : Agent} {c : Nat} {rest : List Stmt} (hg : s.hasAgent g = true)
    (hl : c < s.ch.length) (hh : (s.chan c).chLock = .held g) (hr : ∀ m ∈ rest, ∃ r, m = .ret r) :
    (s.releaseCh g c rest).UnderLock g c := by
  rw [releaseCh_holder rest hh]
  exact ⟨by simpa, by simpa, .inr ⟨by simp [hl], by simpa [hg] using hr⟩⟩

/-- A step under the lock stays under it, or gives it back at the end of the locked part (R92); an agent that a fault stops keeps
it (log 15). -/
theorem agentStep_underLock {s : State} {g : Agent} {c : Nat} (hs : s.UnderLock g c) (hp : State.hasCode g s = true) :
    (s.agentStep g).UnderLock g c := by
  obtain he | ⟨m, rest, hn, he⟩ := agentStep_cases s g
  · rwa [he]
  obtain ⟨hg, hl, hs⟩ := hs
  have hc : (s.agent g).code = m :: rest := by
    cases hcode : (s.agent g).code with
    | nil => simp [State.hasCode, hcode] at hp
    | cons m' rest' => simpa [State.nextCode, hcode] using hn
  rw [he]
  have frame : m.plain = true → (s.doStmt g m rest).hasAgent g = true ∧ c < (s.doStmt g m rest).ch.length := fun hm => by
    have hk := doStmt_shapeKept (m := m) (by rintro rfl; cases hm) s g rest
    exact ⟨by rwa [hasAgent_of_tasks_length hk.tasks], by rwa [hk.ch]⟩
  rw [hc] at hs
  obtain ⟨hh, ⟨rfl, hr⟩ | ⟨hm, hr⟩⟩ | ⟨hf, hr⟩ := hs
  · exact releaseCh_underLock hg hl hh hr
  · obtain ⟨hg', hl'⟩ := frame hm
    exact ⟨hg', hl', .inl ⟨by rwa [doStmt_plain_chLock hm], doStmt_plain_lockedPart hg hc hm hr⟩⟩
  · obtain ⟨r, rfl⟩ := hr m (by simp)
    obtain ⟨hg', hl'⟩ := frame rfl
    exact ⟨hg', hl',
      .inr ⟨by rwa [doStmt_plain_chLock rfl], by simpa [State.doStmt, hg] using fun m hm => hr m (by simp [hm])⟩⟩

/-- A run under the lock stays under it, or gives it back at its end (R92). -/
theorem runWhile_underLock {g : Agent} {c : Nat} (n : Nat) : ∀ {s : State}, s.UnderLock g c →
    (State.runWhile (State.hasCode g) n g s).UnderLock g c := by
  induction n with
  | zero => exact id
  | succ n ih =>
    intro s hs
    simp only [State.runWhile]
    split
    · exact ih (agentStep_underLock hs ‹_›)
    · exact hs

/-! ## Coming to the lock -/

/-- The request `i` of the ready agent `g` comes, in `k` statements, in the state `t` to its `acquire` of the lock of channel `c`,
and has not touched that lock. -/
structure ComesToLock (s : State) (g : Agent) (c : Nat) (i : Instr) (k : Nat) (t : State) : Prop where
  ready : s.ready g = true
  runs : t.runs g = true
  lock : (t.chan c).chLock = (s.chan c).chLock
  len : t.ch.length = s.ch.length
  run : ∃ code, Acquires c code ∧ ∀ n,
    State.runWhile (State.hasCode g) (n + k) g (s.setAgent g (ctl (requestCode s.params i) (s.agent g).acc [])) =
      State.runWhile (State.hasCode g) n g (t.setAgent g (ctl code (s.agent g).acc []))

/-- An operation whose first statement is the acquire. -/
theorem ComesToLock.of_acquires {s : State} {g : Agent} {c : Nat} {i : Instr} (h : s.ready g = true)
    (hc : Acquires c (requestCode s.params i)) : ComesToLock s g c i 0 s :=
  ⟨h, ready_runs h, rfl, rfl, _, hc, fun _ => rfl⟩

/-- An operation whose one statement checks its operands and goes on to the acquire. -/
theorem ComesToLock.of_check {s : State} {g : Agent} {c : Nat} {i : Instr} {m : Stmt} {code : List Stmt}
    (h : s.ready g = true) (hi : requestCode s.params i = [m]) (hc : Acquires c code)
    (hm : ∀ a : AgentCtl, (s.setAgent g a).doStmt g m [] = (s.setAgent g a).goOn g code) : ComesToLock s g c i 1 s := by
  have hg := State.runs_hasAgent (ready_runs h)
  refine ⟨h, ready_runs h, rfl, rfl, code, hc, fun n => ?_⟩
  rw [hi, run_goOn (t := s) (code := code) (acc' := (s.agent g).acc) (ready_runs h)
    ((follows_hasCode g s.ds).loaded rfl hg) (by rw [hm]; simp [hg])]

/-- Where the lock is held the request waits at its acquire (R91). -/
theorem ComesToLock.waits {s t : State} {g h : Agent} {c k : Nat} {i : Instr} (w : ComesToLock s g c i k t)
    (hl : (s.chan c).chLock = .held h) (hq : 1 ≤ s.quantum) (hk : k ≤ s.quantum) :
    ∃ rest, s.request g i = t.setAgent g { s.agent g with code := .acquireCh c :: rest } := by
  obtain ⟨_, ⟨rest, rfl, -⟩, hrun⟩ := w.run
  obtain ⟨n, hn⟩ := quantum_split hk
  refine ⟨rest, ?_⟩
  rw [request_ready w.ready hq, hn, hrun, run_acquireCh_held (State.runs_hasAgent w.runs) (w.lock.trans hl),
    ready_ctl w.ready]

/-- Where the lock is free the request has it one statement later, and keeps it to the end of its locked part (R91, R92). -/
theorem ComesToLock.holds {s t : State} {g : Agent} {c k : Nat} {i : Instr} (w : ComesToLock s g c i k t)
    (hl : (s.chan c).chLock = .free) (hc : c < s.ch.length) (hk : k + 1 ≤ s.quantum) : (s.request g i).UnderLock g c := by
  obtain ⟨_, ⟨rest, rfl, hr⟩, hrun⟩ := w.run
  obtain ⟨n, hn⟩ := quantum_split hk
  have hg := State.runs_hasAgent w.runs
  have hlen : c < t.ch.length := by rwa [w.len]
  rw [request_ready w.ready (by omega), hn, show n + (k + 1) = n + 1 + k by omega, hrun,
    run_acquireCh w.runs (w.lock.trans hl) rfl (follows_hasCode g _)]
  exact runWhile_underLock n ⟨by simpa, by simpa, .inl ⟨by simp [hlen], by simpa [hg] using hr⟩⟩

/-- An operation that comes to the free lock leaves its agent holding it, or at the end of its locked part (R91, R92). -/
theorem ComesToLock.exec_holds {s t : State} {g : Agent} {c k : Nat} {i : Instr} (w : ComesToLock s g c i k t)
    (hask : s.askedOf i = some g) (hl : (s.chan c).chLock = .free) (hc : c < s.ch.length) (hk : k + 1 ≤ s.quantum) :
    ∃ t, exec i s = .next t ∧
      ((t.chan c).chLock = .held g ∨ ((t.chan c).chLock = .free ∧ ∀ m ∈ (t.agent g).code, ∃ r, m = .ret r)) := by
  obtain ⟨-, -, hu⟩ := w.holds hl hc hk
  exact ⟨_, exec_asked hask, hu.imp_left And.left⟩

/-! ## The operations that run under the lock -/

/-- Operands of SET_LINE inside their sets have a line-control byte (R160, R162). -/
theorem lineLcr_of_sets {p : LineParams} (h5 : 5 ≤ p.wordLen) (h8 : p.wordLen ≤ 8) (hst : p.stopBits = 1 ∨ p.stopBits = 2)
    (hp : p.parity ≠ none) : ∃ lcr, lineLcr p = some lcr := by
  obtain ⟨q, hq⟩ := Option.ne_none_iff_exists'.mp hp
  have hw : ∃ w, wordLenOf p.wordLen = some w := by
    generalize p.wordLen = n at h5 h8
    interval_cases n <;> exact ⟨_, rfl⟩
  obtain ⟨w, hw⟩ := hw
  obtain hst | hst := hst <;> exact ⟨_, by rw [lineLcr, hw, hst, hq]; rfl⟩

section

variable {s : State} {g : Agent} {c : Nat}

/-- SET_LINE that is accepted comes to the lock behind its checks (R163). -/
theorem setLine_comesToLock (h : s.ready g = true) {p : LineParams} {r : Half × Nat} (h5 : 5 ≤ p.wordLen)
    (h8 : p.wordLen ≤ 8) (hst : p.stopBits = 1 ∨ p.stopBits = 2) (hp : p.parity ≠ none)
    (hd : computeDivisor s.params.clockHz p.baud = .ok r) : ComesToLock s g c (.setLine c p) 1 s := by
  obtain ⟨lcr, hlcr⟩ := lineLcr_of_sets h5 h8 hst hp
  exact .of_check h rfl (setLineLockedCode_acquires c p lcr r.1 r.2) fun a => by
    simp [State.doStmt, State.setLineStart, hlcr, hd]

/-- RS485_SET of a valid configuration comes to the lock behind its check (R227). -/
theorem rs485Set_comesToLock (h : s.ready g = true) {cfg : Rs485} (hv : Config.rs485Valid cfg = true) :
    ComesToLock s g c (.rs485Set c cfg) 1 s :=
  .of_check h rfl (rs485LockedCode_acquires c cfg) fun a => by simp [State.doStmt, State.rs485Start, hv]

/-- RS485_SET of another configuration is rejected, and nothing else happens (R227). -/
theorem rs485Set_rejected (h : s.ready g = true) (hq : 1 ≤ s.quantum) {cfg : Rs485} (hv : Config.rs485Valid cfg = false) :
    s.request g (.rs485Set c cfg) = s.show [.result g (.rejected .invalidControlRequest)] :=
  request_show h hq rfl (by simp [State.doStmt, State.rs485Start, hv, State.runs_hasAgent (ready_runs h)])

/-- SHUTDOWN's wait, over: the pending requests of the task agents are dropped (R279, R280). -/
theorem run_awaitTasks {p : State → Bool} {n : Nat} {d : DState} {rest : List Stmt} {acc : List Byte} {q : List Instr}
    (h : s.runs (.config c) = true) (hi : (s.chanAgents c).tasksIdle = true) (hd : s.ds = d) (hp : Follows p (.config c) d) :
    State.runWhile p (n + 1) (.config c) (s.setAgent (.config c) (ctl (.awaitTasks c :: rest) acc q)) =
      State.runWhile p n (.config c) ((s.dropTasks c).setAgent (.config c) (ctl rest acc q)) := by
  have hg := State.runs_hasAgent h
  have hc : c < s.tasks.length := by simpa [State.hasAgent] using hg
  refine run_goOn h (hp.loaded hd hg) ?_
  have hidle : ((s.setAgent (.config c) (ctl (.awaitTasks c :: rest) acc q)).chanAgents c).tasksIdle = true := by
    simpa [State.setAgent, State.chanAgents, hc, ChanAgents.tasksIdle] using hi
  rw [State.doStmt, State.awaitTasks, if_pos hidle, dropTasks_setAgent s c _ hc]
  simp [hg]

/-- Writing each task agent of a channel with no request pending is dropping them (R280). -/
theorem setAgents_eq_dropTasks (t : State) (ht : t.tasks = s.tasks) (hc : c < s.tasks.length) :
    (((t.setAgent (.beginTx c) { s.agent (.beginTx c) with pending := [] }).setAgent (.stopTx c)
      { s.agent (.stopTx c) with pending := [] }).setAgent (.stopRx c) { s.agent (.stopRx c) with pending := [] }).setAgent
        (.setMctrl c) { s.agent (.setMctrl c) with pending := [] } = t.dropTasks c := by
  simp [State.setAgent, State.dropTasks, State.agent, State.chanAgents, ChanAgents.dropTasks, ht, hc]

/-- Task agents that have no statement are idle (log 12). -/
theorem tasksIdle_of_code (h : ∀ g, g = .beginTx c ∨ g = .stopTx c ∨ g = .stopRx c ∨ g = .setMctrl c → (s.agent g).code = []) :
    (s.chanAgents c).tasksIdle = true := by
  simpa [ChanAgents.tasksIdle, State.agent, and_assoc] using h

/-- What SHUTDOWN of channel `c` does before it waits: its IER write, on channel 0 only (R280, R281). -/
def State.shutdownWritten (s : State) (c : Nat) : State :=
  if c = 0 then s.sent (.config c) .write c 1 [0x00#8] else s

theorem shutdownWritten_tasks (s : State) (c : Nat) : (s.shutdownWritten c).tasks = s.tasks := by
  unfold State.shutdownWritten
  split <;> rfl

/-- SHUTDOWN comes to the lock behind its IER write and its wait (R279, R280). -/
theorem shutdown_comesToLock (h : s.ready (.config c) = true) (hc : c < s.params.nCh) (hw : s.dlabWindow = none)
    (hi : (s.chanAgents c).tasksIdle = true) :
    ComesToLock s (.config c) c (.shutdown c) (if c = 0 then 5 else 1) ((s.shutdownWritten c).dropTasks c) := by
  have hr := ready_runs h
  obtain ⟨-, -, -, -, -, hb⟩ := resting_iff.mp (ready_resting h)
  have hcode : requestCode s.params (.shutdown c) = shutdownCode s.params c := rfl
  unfold State.shutdownWritten
  by_cases h0 : c = 0
  · rw [if_pos h0, if_pos h0]
    refine ⟨h, by simpa [State.runs] using hr, by simp, by simp, _, shutdownLockedCode_acquires s.params c, fun n => ?_⟩
    rw [hcode, shutdownCode_eq, if_pos h0, show n + 5 = n + 1 + 4 by omega,
      run_write hr hc (by decide) hb (hazard_config s c c _ hw) rfl (follows_hasCode _ _),
      run_awaitTasks (by simpa using hr) (by exact hi) rfl (follows_hasCode _ _)]
    rfl
  · rw [if_neg h0, if_neg h0]
    refine ⟨h, by simpa [State.runs] using hr, by simp, by simp, _, shutdownLockedCode_acquires s.params c, fun n => ?_⟩
    rw [hcode, shutdownCode_eq, if_neg h0, List.nil_append, run_awaitTasks hr hi rfl (follows_hasCode _ _)]

end

/-! ## The dispatcher's turns -/

section

variable {s : State} {c : Nat} {rest : List Input}

/-- A turn of two statements for a resting dispatcher inside a pass: it runs them (R10, R176). -/
theorem step_dispatcher_turn (ha : s.params.admissible = true) (hin : s.inbox = turnOf .dispatcher 2 :: rest)
    (hd : s.ds ≠ .idle) :
    step s = .next ((State.runWhile (State.agentBusy .dispatcher) 2 .dispatcher s).given rest (s.inputs + 1) .dispatcher 2) := by
  have hb : s.begin .dispatcher = s := by simp [State.begin, State.accepts, hd]
  have hs := step_turnOf ha .dispatcher s.turn 2 s.inputs s.quantum rest
  rwa [← hin, if_pos (by decide), hb] at hs

/-- The statements of a resting dispatcher are those of its control state (R170). -/
theorem resting_nextCode (hr : s.resting .dispatcher = true) : s.nextCode .dispatcher = dispatchCode s.ds := by
  obtain ⟨-, hcode, -⟩ := resting_iff.mp hr
  rw [State.nextCode, hcode]
  rfl

/-- The control state of a resting agent with other statements to run. -/
theorem resting_ctl {g : Agent} (h : s.resting g = true) (code : List Stmt) :
    { s.agent g with code := code } = ctl code (s.agent g).acc [] := by rw [resting_agent h]

/-- A control state of two statements, which write the channel's record and move to the next control state. -/
theorem run_dispatcher_two {d d' : DState} {m : Stmt} {x : Chan} (hr : s.resting .dispatcher = true) (hd : s.ds = d)
    (hi : d ≠ .idle) (hcode : dispatchCode d = [m, .setDs d'])
    (hm : s.doStmt .dispatcher m [.setDs d'] =
      (s.setChan c x).setAgent .dispatcher { s.agent .dispatcher with code := [.setDs d'] }) :
    State.runWhile (State.agentBusy .dispatcher) 2 .dispatcher s = (s.withDs d').setChan c x := by
  have hp : FollowsDs (State.agentBusy .dispatcher) d := agentBusy_dispatcher ▸ followsDs_inPass hi
  have hrun := resting_runs hr
  have hs := resting_setAgent hr
  have hg : s.hasAgent .dispatcher = true := rfl
  calc State.runWhile (State.agentBusy .dispatcher) 2 .dispatcher s
    _ = State.runWhile (State.agentBusy .dispatcher) 1 .dispatcher
        ((s.setChan c x).setAgent .dispatcher (ctl [.setDs d'] (s.agent .dispatcher).acc [])) := by
      conv_lhs => rw [← hs]
      exact run_ds_goOn hrun hd hcode hp (by rw [hs, hm, resting_ctl hr])
    _ = ((s.withDs d').setChan c x).setAgent .dispatcher (ctl [] (s.agent .dispatcher).acc []) :=
      run_goOn (n := 0) (by simpa using hrun) ((hp.follows _).loaded (by simpa using hd) hg) (by simp [State.doStmt, hg])
    _ = (s.withDs d').setChan c x := resting_back hr (by simp)

/-- The dispatcher takes the free lock before its transmit service (R176). -/
theorem run_txLock_free (hr : s.resting .dispatcher = true) (hd : s.ds = .txLock c) (hl : (s.chan c).chLock = .free) :
    State.runWhile (State.agentBusy .dispatcher) 2 .dispatcher s =
      (s.withDs (.tx c .start)).setChan c { s.chan c with chLock := .held .dispatcher } :=
  run_dispatcher_two hr hd (by simp) rfl (acquireCh_free _ _ hl)

/-- The dispatcher waits for the lock before its transmit service (R91, R176). -/
theorem run_txLock_held {h : Agent} (hr : s.resting .dispatcher = true) (hd : s.ds = .txLock c)
    (hl : (s.chan c).chLock = .held h) : State.runWhile (State.agentBusy .dispatcher) 2 .dispatcher s = s :=
  have hn : s.nextCode .dispatcher = .acquireCh c :: [.setDs (.tx c .start)] := by rw [resting_nextCode hr, hd]; rfl
  runWhile_fixed (agentStep_fixed hn (acquireCh_held _ _ hl)) _ _

/-- The dispatcher gives the lock back at the end of its transmit service (R176, R209). -/
theorem run_txDone (hr : s.resting .dispatcher = true) (hd : s.ds = .tx c .done) (hl : (s.chan c).chLock = .held .dispatcher) :
    State.runWhile (State.agentBusy .dispatcher) 2 .dispatcher s =
      (s.withDs (.pollLsr c)).setChan c { s.chan c with chLock := .free } :=
  run_dispatcher_two hr hd (by simp) rfl (releaseCh_holder _ hl)

end

/-! ## The obligation -/

/-- The request `i` of agent `g` is one of those that run under the lock of channel `c`, but for RS485_SET, which may be rejected,
and SHUTDOWN, which does something before (R92). -/
def State.runsLocked (s : State) (c : Nat) (g : Agent) (i : Instr) : Prop :=
  (g = .beginTx c ∧ i = .beginTx c) ∨ (g = .stopTx c ∧ i = .stopTx c) ∨
    (g = .stopTx c ∧ i = .txSettle c ∧ ¬(s.turn = .dispatcher ∧ s.ds = .tx c .settle)) ∨
    (g = .config c ∧ ((∃ d, i = .setDivisor c d) ∨ (∃ on, i = .configFlow c on) ∨ i = .startup c ∨
      ∃ p r, i = .setLine c p ∧ 5 ≤ p.wordLen ∧ p.wordLen ≤ 8 ∧ (p.stopBits = 1 ∨ p.stopBits = 2) ∧ p.parity ≠ none ∧
        computeDivisor s.params.clockHz p.baud = .ok r))

/-- Each of them is a request of its agent, and comes to the lock in at most one statement. -/
theorem runsLocked_comesToLock {s : State} {g : Agent} {c : Nat} {i : Instr} (h : s.ready g = true) (hc : c < s.params.nCh)
    (hi : s.runsLocked c g i) : s.askedOf i = some g ∧ ∃ k ≤ 1, ComesToLock s g c i k s := by
  obtain ⟨rfl, rfl⟩ | ⟨rfl, rfl⟩ | ⟨rfl, rfl, hn⟩ |
    ⟨rfl, ⟨d, rfl⟩ | ⟨on, rfl⟩ | rfl | ⟨p, r, rfl, h5, h8, hst, hp, hd⟩⟩ := hi
  · exact ⟨if_pos hc, 0, by omega, .of_acquires h (beginTxCode_acquires c)⟩
  · exact ⟨if_pos hc, 0, by omega, .of_acquires h (stopTxCode_acquires c)⟩
  · exact ⟨(if_neg hn).trans (if_pos hc), 0, by omega, .of_acquires h (stopTxCode_acquires c)⟩
  · exact ⟨if_pos hc, 0, by omega, .of_acquires h (setDivisorRequest_acquires s.params c d)⟩
  · exact ⟨if_pos hc, 0, by omega, .of_acquires h (configFlowCode_acquires c on)⟩
  · exact ⟨if_pos hc, 0, by omega, .of_acquires h (startupCode_acquires s.params c)⟩
  · exact ⟨if_pos hc, 1, le_refl _, setLine_comesToLock h h5 h8 hst hp hd⟩

section

variable {s : State} {c : Nat} {h : Agent}

/-- RS485_SET waits for a held lock, or is rejected before it (R227). -/
theorem exec_rs485Set_waits (hr : s.ready (.config c) = true) (hc : c < s.params.nCh) (hl : (s.chan c).chLock = .held h)
    (hq : 1 ≤ s.quantum) (cfg : Rs485) :
    ∃ rest, exec (.rs485Set c cfg) s = .next (if Config.rs485Valid cfg
      then s.setAgent (.config c) { s.agent (.config c) with code := .acquireCh c :: rest }
      else s.show [.result (.config c) (.rejected .invalidControlRequest)]) := by
  have hx : exec (.rs485Set c cfg) s = .next (s.request (.config c) (.rs485Set c cfg)) := exec_asked (if_pos hc)
  rw [hx]
  cases hv : Config.rs485Valid cfg with
  | true =>
    obtain ⟨rest, hw⟩ := (rs485Set_comesToLock hr hv).waits hl hq hq
    exact ⟨rest, by rw [hw, if_pos rfl]⟩
  | false => exact ⟨[], by rw [rs485Set_rejected hr hq hv, if_neg Bool.false_ne_true]⟩

/-- RS485_SET, the lock free, holds it or has given it back, or is rejected before it (R227). -/
theorem exec_rs485Set_holds (hr : s.ready (.config c) = true) (hc : c < s.params.nCh) (hl : (s.chan c).chLock = .free)
    (hlen : c < s.ch.length) (hq : 2 ≤ s.quantum) (cfg : Rs485) :
    ∃ t, exec (.rs485Set c cfg) s = .next t ∧ ((t.chan c).chLock = .held (.config c) ∨
      ((t.chan c).chLock = .free ∧ ∀ m ∈ (t.agent (.config c)).code, ∃ r, m = .ret r)) := by
  have hask : s.askedOf (.rs485Set c cfg) = some (.config c) := if_pos hc
  cases hv : Config.rs485Valid cfg with
  | true => exact (rs485Set_comesToLock hr hv).exec_holds hask hl hlen hq
  | false =>
    obtain ⟨-, hcode, -⟩ := resting_iff.mp (ready_resting hr)
    exact ⟨_, exec_asked hask, .inr (by simp [rs485Set_rejected hr (by omega) hv, hl, hcode])⟩

/-- SHUTDOWN waits for a held lock behind its IER write and the drop of the tasks' requests (R279, R280). -/
theorem exec_shutdown_waits (hr : s.ready (.config c) = true) (hc : c < s.params.nCh) (hl : (s.chan c).chLock = .held h)
    (hw : s.dlabWindow = none) (hi : (s.chanAgents c).tasksIdle = true) (hq : (if c = 0 then 5 else 1) ≤ s.quantum) :
    ∃ rest, exec (.shutdown c) s = .next (((s.shutdownWritten c).dropTasks c).setAgent (.config c)
      { s.agent (.config c) with code := .acquireCh c :: rest }) := by
  have hask : s.askedOf (.shutdown c) = some (.config c) := if_pos hc
  obtain ⟨rest, hx⟩ := (shutdown_comesToLock hr hc hw hi).waits hl (by split at hq <;> omega) hq
  exact ⟨rest, by rw [exec_asked hask, hx]⟩

/-- SHUTDOWN, the lock free and the tasks idle, holds it or has given it back (R280). -/
theorem exec_shutdown_holds (hr : s.ready (.config c) = true) (hc : c < s.params.nCh) (hl : (s.chan c).chLock = .free)
    (hlen : c < s.ch.length) (hw : s.dlabWindow = none) (hi : (s.chanAgents c).tasksIdle = true)
    (hq : (if c = 0 then 6 else 2) ≤ s.quantum) :
    ∃ t, exec (.shutdown c) s = .next t ∧ ((t.chan c).chLock = .held (.config c) ∨
      ((t.chan c).chLock = .free ∧ ∀ m ∈ (t.agent (.config c)).code, ∃ r, m = .ret r)) :=
  (shutdown_comesToLock hr hc hw hi).exec_holds (if_pos hc) hl hlen (by split <;> simp_all)

end

/-- Settles O22: the lock moves as `LocksKept` says, each operation comes to its acquire (`ComesToLock`), and from there its agent
is under the lock (`State.UnderLock`). -/
theorem channelLockIsExclusive : Obligations.ChannelLockIsExclusive := by
  refine ⟨agentStep_chLock, fun s g h c rest hn hl => agentStep_fixed hn (acquireCh_held g rest hl),
    fun s g c rest hn hl => agentStep_fixed hn (releaseCh_other rest hl), fun s c rest ha hin hr hc => ?_,
    fun s c g hr hcn hcl => ⟨fun h hl => ⟨fun i hi hq => ?_, fun cfg hg hq => ?_, fun hg hidle hw hq => ?_⟩, fun hl i hi => ?_⟩⟩
  · refine ⟨fun hd hl => ?_, fun h hd hl => ?_, fun hd hl => ?_⟩ <;> rw [step_dispatcher_turn ha hin (by simp [hd])]
    · rw [run_txLock_free hr hd hl]
      rfl
    · rw [run_txLock_held hr hd hl]
      rfl
    · rw [run_txDone hr hd hl]
      rfl
  · obtain ⟨hask, k, hk, w⟩ := runsLocked_comesToLock hr hcn hi
    obtain ⟨rest, hw⟩ := w.waits hl hq (by omega)
    exact ⟨rest, by rw [exec_asked hask, hw]⟩
  · subst hg
    exact exec_rs485Set_waits hr hcn hl hq cfg
  · subst hg
    have hlen : c < s.tasks.length := by simpa [State.hasAgent] using State.runs_hasAgent (ready_runs hr)
    obtain ⟨rest, hx⟩ := exec_shutdown_waits hr hcn hl hw (tasksIdle_of_code hidle) hq
    exact ⟨rest, by rw [hx, ← setAgents_eq_dropTasks _ (shutdownWritten_tasks s c) hlen]; rfl⟩
  · obtain ⟨hi | ⟨rfl, cfg, rfl⟩, hq⟩ | ⟨rfl, rfl, hidle, hw, hq⟩ := hi
    · obtain ⟨hask, k, hk, w⟩ := runsLocked_comesToLock hr hcn hi
      exact w.exec_holds hask hl hcl (by omega)
    · exact exec_rs485Set_holds hr hcn hl hcl hq cfg
    · exact exec_shutdown_holds hr hcn hl hcl hw (tasksIdle_of_code hidle) hq

end Sys2Proof.Machine
end

section
/-! SUPPORT. The encoding: the fields of a command byte as numbers (R101-R105), what the decoder reads from a record (R100, R106,
R107), the identification byte in its two halves (R112), and the records that are no transaction (R109, R110). -/

namespace Sys2Proof

/-! ## The fields of a command byte -/

theorem cmdZ_eq (b : Byte) : cmdZ b = decide (b.toNat % 2 = 1) := by
  simp [cmdZ, Byte.has, BitVec.getLsbD, Nat.testBit_zero]

theorem cmdIsWrite_eq (b : Byte) : cmdIsWrite b = decide (b.toNat / 2 % 2 = 1) := by
  simp [cmdIsWrite, Byte.has, BitVec.getLsbD, Nat.testBit_succ, Nat.testBit_zero]

theorem cmdReg_eq (b : Byte) : cmdReg b = b.toNat / 4 % 8 := by
  simp [cmdReg, Nat.shiftRight_eq_div_pow]

theorem cmdChan_eq (b : Byte) : cmdChan b = b.toNat / 32 := by
  have hb := b.isLt
  simp only [cmdChan, BitVec.extractLsb'_toNat, Nat.shiftRight_eq_div_pow]
  omega

theorem cmdReg_lt (b : Byte) : cmdReg b < 8 := (b.extractLsb' 2 3).isLt

theorem cmdChan_lt (b : Byte) : cmdChan b < 8 := (b.extractLsb' 5 3).isLt

/-- The read command is four times the register address (R102). -/
theorem readCmd_toNat {c r : Nat} (hc : c < 8) (hr : r < 8) : (readCmd c r).toNat = 4 * (r + 8 * c) := by
  have h : ∀ a : Fin 64, (0xFD#8 &&& BitVec.ofNat 8 (a.val <<< 2)).toNat = 4 * a.val := by decide
  exact h ⟨regAddr c r, by unfold regAddr; omega⟩

/-- The write command is that, with bit 1 set (R103). -/
theorem writeCmd_toNat {c r : Nat} (hc : c < 8) (hr : r < 8) : (writeCmd c r).toNat = 4 * (r + 8 * c) + 2 := by
  have h : ∀ a : Fin 64, (0x02#8 ||| BitVec.ofNat 8 (a.val <<< 2)).toNat = 4 * a.val + 2 := by decide
  exact h ⟨regAddr c r, by unfold regAddr; omega⟩

/-- The read command has the fields of R101: no write, and the offset and channel it was made from. -/
theorem readCmd_fields {c r : Nat} (hc : c < 8) (hr : r < 8) : cmdZ (readCmd c r) = false ∧
    cmdIsWrite (readCmd c r) = false ∧ cmdReg (readCmd c r) = r ∧ cmdChan (readCmd c r) = c := by
  simp only [cmdZ_eq, cmdIsWrite_eq, cmdReg_eq, cmdChan_eq, readCmd_toNat hc hr, decide_eq_false_iff_not]
  omega

/-- The write command has the fields of R101: a write, and the offset and channel it was made from. -/
theorem writeCmd_fields {c r : Nat} (hc : c < 8) (hr : r < 8) : cmdZ (writeCmd c r) = false ∧
    cmdIsWrite (writeCmd c r) = true ∧ cmdReg (writeCmd c r) = r ∧ cmdChan (writeCmd c r) = c := by
  simp only [cmdZ_eq, cmdIsWrite_eq, cmdReg_eq, cmdChan_eq, writeCmd_toNat hc hr, decide_eq_false_iff_not, decide_eq_true_eq]
  omega

/-- A read's command byte is the read command of its fields (R101, R102). -/
theorem readCmd_of_fields {b : Byte} (hz : cmdZ b = false) (hw : cmdIsWrite b = false) : readCmd (cmdChan b) (cmdReg b) = b := by
  apply BitVec.eq_of_toNat_eq
  rw [readCmd_toNat (cmdChan_lt b) (cmdReg_lt b)]
  simp only [cmdZ_eq, cmdIsWrite_eq, decide_eq_false_iff_not] at hz hw
  simp only [cmdReg_eq, cmdChan_eq]
  omega

/-- A write's command byte is the write command of its fields (R101, R103). -/
theorem writeCmd_of_fields {b : Byte} (hz : cmdZ b = false) (hw : cmdIsWrite b = true) : writeCmd (cmdChan b) (cmdReg b) = b := by
  apply BitVec.eq_of_toNat_eq
  rw [writeCmd_toNat (cmdChan_lt b) (cmdReg_lt b)]
  simp only [cmdZ_eq, cmdIsWrite_eq, decide_eq_false_iff_not, decide_eq_true_eq] at hz hw
  simp only [cmdReg_eq, cmdChan_eq]
  omega

/-! ## What the decoder reads -/

/-- The operation that a record of command byte `cmd` with bit 0 clear stands for: with one data byte a register access, with
more a burst of offset 0 (R106, R107). -/
inductive StandsFor (cmd : Byte) : List Byte → Instr → Prop where
  | write {c r : Nat} (v : Byte) (hw : cmdIsWrite cmd = true) (hc : cmdChan cmd = c) (hr : cmdReg cmd = r) :
      StandsFor cmd [v] (.write c r v)
  | read {c r : Nat} (v : Byte) (hw : cmdIsWrite cmd = false) (hc : cmdChan cmd = c) (hr : cmdReg cmd = r) :
      StandsFor cmd [v] (.read c r)
  | burstWrite {c : Nat} (data : List Byte) (hw : cmdIsWrite cmd = true) (hc : cmdChan cmd = c) (hr : cmdReg cmd = 0)
      (h2 : 2 ≤ data.length) (hd : data.length ≤ Config.fifoDepth) : StandsFor cmd data (.burstWrite c 0 data)
  | burstRead {c k : Nat} (data : List Byte) (hw : cmdIsWrite cmd = false) (hc : cmdChan cmd = c) (hr : cmdReg cmd = 0)
      (h2 : 2 ≤ data.length) (hk : data.length = k) : StandsFor cmd data (.burstRead c k)

theorem decodeCommand_bitZeroSet {cmd : Byte} (n : Nat) (data : List Byte) (hz : cmdZ cmd = true) :
    decodeCommand n cmd data = .error (.bitZeroSet cmd) := if_pos hz

theorem decodeCommand_channelOutOfRange {n : Nat} {cmd : Byte} (data : List Byte) (hz : cmdZ cmd = false)
    (hc : n ≤ cmdChan cmd) : decodeCommand n cmd data = .error (.channelOutOfRange cmd) := by
  simp [decodeCommand, hz, hc]

/-- A record is read as the operation it stands for (R100, R106). -/
theorem decodeCommand_of_standsFor {n : Nat} {cmd : Byte} {data : List Byte} {i : Instr} (hz : cmdZ cmd = false)
    (hn : cmdChan cmd < n) (h : StandsFor cmd data i) : decodeCommand n cmd data = .ok i := by
  cases h with
  | write v hw hc hr =>
    subst hc hr
    simp [decodeCommand, hz, hw, hn]
  | read v hw hc hr =>
    subst hc hr
    simp [decodeCommand, hz, hw, hn]
  | burstWrite _ hw hc hr h2 hd =>
    match data, h2 with
    | v :: w :: rest, _ =>
      rw [decodeCommand, if_neg (by simp [hz]), if_neg (by omega), if_pos hw, if_pos ⟨hr, hd⟩, hc]
  | burstRead _ hw hc hr h2 hk =>
    match data, h2 with
    | v :: w :: rest, _ =>
      rw [decodeCommand, if_neg (by simp [hz]), if_neg (by omega), if_neg (by simp [hw]), if_pos hr, hc, hk]

/-- The numbers of data bytes that a transaction may have: one, or more of offset 0, at most 16 in a write (R106). -/
def LengthOk (cmd : Byte) (k : Nat) : Prop :=
  k = 1 ∨ cmdReg cmd = 0 ∧ 1 ≤ k ∧ (cmdIsWrite cmd = true → k ≤ Config.fifoDepth)

/-- A record with a number of data bytes in range stands for an operation (R106). -/
theorem exists_standsFor {cmd : Byte} {data : List Byte} (h : LengthOk cmd data.length) : ∃ i, StandsFor cmd data i := by
  by_cases h1 : data.length = 1
  · obtain ⟨v, rfl⟩ := List.length_eq_one_iff.mp h1
    cases hw : cmdIsWrite cmd with
    | true => exact ⟨_, .write v hw rfl rfl⟩
    | false => exact ⟨_, .read v hw rfl rfl⟩
  · obtain ⟨hr, hl, hd⟩ := h.resolve_left h1
    cases hw : cmdIsWrite cmd with
    | true => exact ⟨_, .burstWrite data hw rfl hr (by omega) (hd hw)⟩
    | false => exact ⟨_, .burstRead data hw rfl hr (by omega) rfl⟩

theorem decodeCommand_dataLength {n : Nat} {cmd : Byte} {data : List Byte} (hz : cmdZ cmd = false) (hc : cmdChan cmd < n)
    (hl : ¬ LengthOk cmd data.length) : decodeCommand n cmd data = .error (.dataLength cmd data.length) := by
  match data with
  | [] => simp [decodeCommand, hz, hc]
  | [v] => exact absurd (.inl rfl) hl
  | v :: w :: rest =>
    have hn : ¬(cmdReg cmd = 0 ∧ (cmdIsWrite cmd = true → (v :: w :: rest).length ≤ Config.fifoDepth)) :=
      fun ⟨hr, hd⟩ => hl (.inr ⟨hr, by simp, hd⟩)
    cases hw : cmdIsWrite cmd with
    | true => rw [decodeCommand, if_neg (by simp [hz]), if_neg (by omega), if_pos hw,
      if_neg fun ⟨hr, hd⟩ => hn ⟨hr, fun _ => hd⟩]
    | false => rw [decodeCommand, if_neg (by simp [hz]), if_neg (by omega), if_neg (by simp [hw]),
      if_neg fun hr => hn ⟨hr, by simp [hw]⟩]

/-- What the decoder reads from a record is the operation it stands for, its command a legal one (R100, R106, R109, R110). -/
theorem standsFor_of_decodeCommand {n : Nat} {cmd : Byte} {data : List Byte} {i : Instr} (h : decodeCommand n cmd data = .ok i) :
    cmdZ cmd = false ∧ cmdChan cmd < n ∧ StandsFor cmd data i := by
  have hz : cmdZ cmd = false := by
    by_contra hz
    rw [decodeCommand_bitZeroSet n data (by simpa using hz)] at h
    cases h
  have hc : cmdChan cmd < n := by
    by_contra hc
    rw [decodeCommand_channelOutOfRange data hz (by omega)] at h
    cases h
  by_cases hl : LengthOk cmd data.length
  · obtain ⟨j, hj⟩ := exists_standsFor hl
    rw [decodeCommand_of_standsFor hz hc hj] at h
    cases h
    exact ⟨hz, hc, hj⟩
  · rw [decodeCommand_dataLength hz hc hl] at h
    cases h

/-! ## The identification byte -/

theorem has_zero_append (hi lo : BitVec 4) : Byte.has (hi ++ lo) 0 = lo.getLsbD 0 := by
  rw [Byte.has, BitVec.getLsbD_append, if_pos (by omega)]

theorem code_append (hi lo : BitVec 4) : (hi ++ lo).extractLsb' 1 3 = lo.extractLsb' 1 3 :=
  BitVec.extractLsb'_append_eq_of_add_le (by omega)

theorem high_append (hi lo : BitVec 4) : (hi ++ lo).extractLsb' 4 4 = hi := BitVec.extractLsb'_append_eq_left

/-- NOINT is told by bit 0 alone (R112). -/
theorem decodeIirRow_noint (rest : BitVec 7) : decodeIirRow (rest ++ 1#1) = .iirNoint rest := by
  have h0 : Byte.has (rest ++ 1#1) 0 = true := by
    rw [Byte.has, BitVec.getLsbD_append, if_pos (by omega)]
    rfl
  rw [decodeIirRow, if_pos h0]
  exact congrArg _ BitVec.extractLsb'_append_eq_left

/-! ## The statements -/

/-- Settles O3: a record made from an operation stands for it, a burst of one byte under its other name, and a record is read as
what it stands for; an identification byte is read by its halves. -/
theorem decodeOfEncodeIsSame : Obligations.DecodeOfEncodeIsSame := by
  intro n i w hn hi he
  cases i with
  | read c r =>
    cases he
    obtain ⟨hc, hr⟩ := of_decide_eq_true hi
    obtain ⟨hz, hw, hreg, hch⟩ := readCmd_fields (show c < 8 by omega) hr
    exact decodeCommand_of_standsFor hz (by omega) (.read _ hw hch hreg)
  | write c r v =>
    cases he
    obtain ⟨hc, hr⟩ := of_decide_eq_true hi
    obtain ⟨hz, hw, hreg, hch⟩ := writeCmd_fields (show c < 8 by omega) hr
    exact decodeCommand_of_standsFor hz (by omega) (.write v hw hch hreg)
  | burstWrite c startReg bytes =>
    cases he
    obtain ⟨hc, rfl, h1, hd⟩ := of_decide_eq_true hi
    obtain ⟨hz, hw, hreg, hch⟩ := writeCmd_fields (show c < 8 by omega) (show 0 < 8 by omega)
    refine decodeCommand_of_standsFor (cmd := writeCmd c 0) hz (by omega) ?_
    match bytes, h1 with
    | [v], _ => exact .write v hw hch hreg
    | v :: w :: rest, _ => exact .burstWrite _ hw hch hreg (by simp) hd
  | burstRead c k =>
    cases he
    obtain ⟨hc, h1⟩ := of_decide_eq_true hi
    obtain ⟨hz, hw, hreg, hch⟩ := readCmd_fields (show c < 8 by omega) (show 0 < 8 by omega)
    refine decodeCommand_of_standsFor (cmd := readCmd c 0) hz (by omega) ?_
    match k, h1 with
    | 1, _ => exact .read _ hw hch hreg
    | k + 2, _ => exact .burstRead _ hw hch hreg (by simp) (by simp)
  | iirNoint rest =>
    cases he
    exact congrArg _ (decodeIirRow_noint rest)
  | iirMsi hi | iirThre hi | iirRda hi | iirRls hi | iirRto hi | iirUnknown08 hi | iirUnknown0A hi | iirUnknown0E hi =>
    cases he
    simp [decodeWords, decodeIirRow, has_zero_append, code_append, high_append, Instr.sameTransaction]
  | _ => cases he

/-- Settles O4: the decoder reads what the record stands for (`standsFor_of_decodeCommand`), and a command byte is made from its
own fields. -/
theorem encodeOfDecodeIsSame : Obligations.EncodeOfDecodeIsSame := by
  intro n cmd data i h
  obtain ⟨hz, hn, hs⟩ := standsFor_of_decodeCommand h
  have hlt := cmdReg_lt cmd
  have noWrite : ∀ {P : Prop}, cmdIsWrite cmd = false → cmd.getLsbD 1 = true → P := fun hw h => by
    cases hw.symm.trans h
  cases hs with
  | write v hw hc hr =>
    subst hc hr
    exact ⟨by simp [Instr.wf, hn, hlt], [v], by rw [encode, writeCmd_of_fields hz hw], rfl, fun _ => rfl⟩
  | read v hw hc hr =>
    subst hc hr
    exact ⟨by simp [Instr.wf, hn, hlt], [0#8], by rw [encode, readCmd_of_fields hz hw], rfl, noWrite hw⟩
  | burstWrite _ hw hc hr h2 hd =>
    subst hc
    have he : burstWriteCmd (cmdChan cmd) = cmd := (congrArg _ hr).symm.trans (writeCmd_of_fields hz hw)
    exact ⟨by simp [Instr.wf, hn, hd]; omega, data, by rw [encode, he], rfl, fun _ => rfl⟩
  | burstRead _ hw hc hr h2 hk =>
    subst hc hk
    have he : burstReadCmd (cmdChan cmd) = cmd := (congrArg _ hr).symm.trans (readCmd_of_fields hz hw)
    exact ⟨by simp [Instr.wf, hn]; omega, List.replicate data.length 0#8, by rw [encode, he], by simp, noWrite hw⟩

/-- Settles O1: the command bytes are four times the register address, and two more for a write. -/
theorem commandBytesMatchFormulas : Obligations.CommandBytesMatchFormulas := by
  intro c r hc hr
  have ha : ∀ r, (r + c * 8) = regAddr c r := fun r => by rw [regAddr, Nat.mul_comm]
  have h5 : c <<< 5 = regAddr c 0 <<< 2 := by
    simp only [regAddr, Nat.shiftLeft_eq]
    omega
  have hread : (readCmd c r).toNat = regAddr c r <<< 2 := by
    rw [readCmd_toNat hc hr, Nat.shiftLeft_eq, Nat.mul_comm, regAddr]
  have hwrite : (writeCmd c r).toNat = regAddr c r <<< 2 + 2 := by
    rw [writeCmd_toNat hc hr, Nat.shiftLeft_eq, Nat.mul_comm, regAddr]
  have hburst : burstReadCmd c = BitVec.ofNat 8 (regAddr c 0 <<< 2) := by
    apply BitVec.eq_of_toNat_eq
    rw [show burstReadCmd c = readCmd c 0 from rfl, readCmd_toNat hc (by omega), BitVec.toNat_ofNat, Nat.shiftLeft_eq, regAddr]
    omega
  rw [ha, h5]
  exact ⟨rfl, hread, rfl, hwrite, rfl, rfl, rfl, hburst⟩

/-- Settles O2, each word by evaluation. -/
theorem tableWordsDecode : Obligations.TableWordsDecode :=
  ⟨rfl, rfl, rfl, rfl, rfl, rfl, rfl, rfl, rfl, rfl, rfl, rfl, rfl, rfl⟩

end Sys2Proof

namespace Sys2Proof.Machine

/-! ## The identification byte under the parameters' default values -/

/-- The identification field of a byte with bit 0 clear is its low half (R112). -/
theorem iirId_toNat {v : Byte} (h : v.toNat % 2 = 0) : (v &&& Config.iir.idMask).toNat = v.toNat % 16 := by
  have hdiv : (v.toNat &&& 14) / 2 = v.toNat / 2 % 8 := by
    rw [Nat.and_div_two]
    exact Nat.and_two_pow_sub_one_eq_mod _ 3
  have hmod : (v.toNat &&& 14) % 2 = 0 := by
    have := @Nat.and_mod_two_eq_one v.toNat 14
    omega
  rw [BitVec.toNat_and]
  change v.toNat &&& 14 = _
  omega

/-- Settles O6: with bit 0 clear the identification field is the low half of the byte, and each code is compared as a number. -/
theorem iirDecodeTable : Obligations.IirDecodeTable := by
  intro v
  have hz : Byte.has v Config.iir.noIntBit = decide (v.toNat % 2 = 1) := cmdZ_eq v
  by_cases h : v.toNat % 2 = 1
  · simp [decodeIir, hz, h]
  · have hid : ∀ k : Byte, v &&& Config.iir.idMask = k ↔ v.toNat % 16 = k.toNat := fun k => by
      rw [← iirId_toNat (by omega), BitVec.toNat_inj]
    simp only [decodeIir, hz, h, hid]
    rfl

/-! ## Steps that take a record or a request -/

/-- Settles O7: the input is taken, and the decoder's answer is run. -/
theorem stepRunsDecodedTransaction : Obligations.StepRunsDecodedTransaction := by
  intro s bytes g q rest i ha hin hd
  rw [step, if_pos ha, nextInput_of_inbox hin, takeInput_of_inbox hin]
  dsimp only
  rw [hd]

/-- Settles O8: the input is taken, and the operation requested is run. -/
theorem stepRunsRequest : Obligations.StepRunsRequest := by
  intro s g q rest i ha hin
  rw [step, if_pos ha, nextInput_of_inbox hin, takeInput_of_inbox hin]

/-- A fault, written out: it is recorded, its agent stops, and the bus lock is free again if that agent held it (R130, R246). -/
theorem raise_eq (s : State) (g : Agent) (f : ModelFault) : s.raise g f = State.setAgent
    { s with
      busLock := if s.busLock = .held g then .free else s.busLock
      faults := if f ∈ s.faults then s.faults else s.faults ++ [f] } g { s.agent g with stopped := true } := by
  have hd : (s.addFault f).dropBus g = { s with
      busLock := if s.busLock = .held g then .free else s.busLock
      faults := if f ∈ s.faults then s.faults else s.faults ++ [f] } := by
    rw [State.dropBus, State.addFault_busLock]
    by_cases hb : s.busLock = .held g
    · rw [if_pos hb, if_pos hb]
      rfl
    · rw [if_neg hb, if_neg hb]
      rfl
  rw [State.raise, hd]

/-- A record that the decoder rejects (R100, R109, R110). -/
theorem step_badRecord {s : State} {bytes : List Byte} {g : Agent} {q : Nat} {rest : List Input} {e : DecodeError}
    (ha : s.params.admissible = true) (hin : s.inbox = { kind := .bus bytes, turn := g, quantum := q } :: rest)
    (hd : decode s.params.nCh bytes = .error e) : step s = (s.given rest (s.inputs + 1) g q).badRecord e := by
  rw [step, if_pos ha, nextInput_of_inbox hin, takeInput_of_inbox hin]
  dsimp only
  rw [hd]
  rfl

/-- Once ATTACH has ended, a record out of range is a fault of the agent with the turn, if none has stopped it (R246, R273). -/
theorem raiseOnRecord_given {s : State} {g : Agent} (hat : s.attached = true) (hst : (s.agent g).stopped = false)
    (x : List Input) (y q : Nat) (f : ModelFault) : (s.given x y g q).raiseOnRecord f = (s.raise g f).given x y g q := by
  have hc : (s.given x y g q).canStep g = true := by simp [State.canStep, hst, show (s.given x y g q).attached = true from hat]
  rw [State.raiseOnRecord, show (s.given x y g q).turn = g from rfl, if_pos hc, given_raise]

/-- A record that the decoder rejects with a fault `f`, and what the fault leaves, written out (R130, R246). -/
theorem step_recordFault {s : State} {bytes : List Byte} {g : Agent} {q : Nat} {rest : List Input} {e : DecodeError}
    {f : ModelFault} (ha : s.params.admissible = true) (hin : s.inbox = { kind := .bus bytes, turn := g, quantum := q } :: rest)
    (hd : decode s.params.nCh bytes = .error e) (he : ∀ t : State, t.badRecord e = .next (t.raiseOnRecord f))
    (hat : s.attached = true) (hst : (s.agent g).stopped = false) : step s = .next (State.setAgent
      { s with
        inbox := rest, inputs := s.inputs + 1, turn := g, quantum := q
        busLock := if s.busLock = .held g then .free else s.busLock
        faults := if f ∈ s.faults then s.faults else s.faults ++ [f] } g { s.agent g with stopped := true }) := by
  rw [step_badRecord ha hin hd, he, raiseOnRecord_given hat hst, raise_eq, ← given_setAgent]
  rfl

/-- Settles O5: the decoder's answer names the refusal or the fault of the record, and `step_recordFault` writes out what
a fault leaves. -/
theorem badRecordsStopOrFault : Obligations.BadRecordsStopOrFault := by
  refine ⟨fun s ha => if_neg (by simp [ha]),
    fun s g q rest ha => ⟨fun hin => step_badRecord ha hin rfl, fun cmd data hin => ?_⟩⟩
  refine ⟨fun hz => step_badRecord ha hin (decodeCommand_bitZeroSet _ data hz),
    fun hz hat hst => ⟨fun hc => ?_, fun hc hl => ?_⟩⟩
  · rw [← cmdChan_eq] at hc ⊢
    rw [← cmdReg_eq]
    exact step_recordFault ha hin (decodeCommand_channelOutOfRange data hz hc) (fun _ => rfl) hat hst
  · rw [← cmdChan_eq] at hc ⊢
    rw [← cmdReg_eq] at hl ⊢
    exact step_recordFault ha hin (decodeCommand_dataLength hz hc hl) (fun _ => rfl) hat hst

end Sys2Proof.Machine
end

section
/-! SUPPORT. What the block issues: the transactions that the statements show, and the statement lists that stand behind their
checks (R101, R106, R109, R110). -/

namespace Sys2Proof.Machine

/-! ## The invariant through the updates -/

@[simp] theorem issued_withBus (s : State) (l : Lock) : (s.withBus l).Issued ↔ s.Issued := .rfl
@[simp] theorem issued_withWindow (s : State) (w : Option (Agent × Nat)) : (s.withWindow w).Issued ↔ s.Issued := .rfl
@[simp] theorem issued_withScratch (s : State) (l : List Byte) : (s.withScratch l).Issued ↔ s.Issued := .rfl
@[simp] theorem issued_withDs (s : State) (d : DState) : (s.withDs d).Issued ↔ s.Issued := .rfl
@[simp] theorem issued_addFault (s : State) (f : ModelFault) : (s.addFault f).Issued ↔ s.Issued := .rfl
@[simp] theorem issued_drawn (s : State) : s.drawn.Issued ↔ s.Issued := .rfl
@[simp] theorem issued_setChan (s : State) (c : Nat) (x : Chan) : (s.setChan c x).Issued ↔ s.Issued := .rfl
@[simp] theorem issued_dropTasks (s : State) (c : Nat) : (s.dropTasks c).Issued ↔ s.Issued := by
  simp [State.Issued, dropTasks_code]

/-- What is shown keeps the invariant if its transactions are ones the block may issue. -/
@[simp] theorem issued_show (s : State) (l : List Obs) :
    (s.show l).Issued ↔ s.Issued ∧ ∀ e, .txn e ∈ l → eventOk s.params.nCh e = true := by
  simp only [State.Issued, State.show_out, State.show_params, State.show_agent, List.mem_append]
  exact ⟨fun ⟨ho, hc⟩ => ⟨⟨fun e h => ho e (.inl h), hc⟩, fun e h => ho e (.inr h)⟩,
    fun ⟨⟨ho, hc⟩, hl⟩ => ⟨fun e h => h.elim (ho e) (hl e), hc⟩⟩

/-- An agent may go on with statements that stand behind their checks. -/
theorem State.Issued.setAgent {s : State} {g : Agent} {a : AgentCtl} (hs : s.Issued) (ha : Guarded s.params.nCh a.code) :
    (s.setAgent g a).Issued := by
  cases hg : s.hasAgent g with
  | false => rwa [setAgent_absent _ _ _ hg]
  | true =>
    obtain ⟨ho, hc⟩ := hs
    refine ⟨by simpa using ho, fun h => ?_⟩
    rw [State.setAgent_params]
    by_cases hh : h = g
    · rwa [hh, State.setAgent_agent_self _ _ _ hg]
    · rw [State.setAgent_agent_ne _ _ _ _ hh]
      exact hc h

/-- A fault leaves its agent the statements it had (R246). -/
theorem State.Issued.raise {s : State} (hs : s.Issued) (g : Agent) (f : ModelFault) : (s.raise g f).Issued := by
  have hd : ((s.addFault f).dropBus g).Issued := by
    unfold State.dropBus
    split <;> simpa
  have hp : ((s.addFault f).dropBus g).params = s.params := by
    unfold State.dropBus
    split <;> simp
  exact hd.setAgent (by rw [hp]; exact hs.2 g)

/-! ## The statement lists of the operations and of the dispatcher -/

theorem guarded_setDivisor (n c : Nat) (d : Half) : Guarded n (setDivisorCode c d) :=
  guarded_append (l1 := .openWindow c :: readCode c offLcr) (guarded_read n c offLcr) trivial

theorem guarded_divisorWrites (n c : Nat) (d : Half) (lcr : Byte) : Guarded n (divisorWritesCode c d lcr) :=
  have w := guarded_write n c
  guarded_append (guarded_append (guarded_append (guarded_append (w _ _) (w _ _)) (w _ _)) (w _ _)) trivial

theorem guarded_flow (n c : Nat) (enabled : Bool) : Guarded n (flowCode c enabled) := by
  refine guarded_append (l1 := .setFlow c enabled :: mcrCode c) (guarded_mcr n c) ?_
  cases enabled <;> trivial

theorem guarded_setLineLocked (n c : Nat) (p : LineParams) (lcr : Byte) (d : Half) (achieved : Nat) :
    Guarded n (setLineLockedCode c p lcr d achieved) :=
  have hw := guarded_append (l1 := [.acquireCh c, .setReadStatusMask c _, .setIgnoreMask c _]) trivial
    (guarded_write n c offLcr lcr)
  guarded_append (guarded_append (guarded_append hw (guarded_setDivisor n c d)) (guarded_flow n c p.flow)) trivial

theorem guarded_settleTail (n c : Nat) : Guarded n (settleTailCode c) := guarded_append (guarded_update n c _ _ _) trivial

theorem guarded_beginTx (n c : Nat) : Guarded n (beginTxCode c) :=
  guarded_append (guarded_append (l1 := [.acquireCh c, .beginSession c]) trivial (guarded_update n c _ _ _)) trivial

theorem guarded_attach (n : Nat) (p : Params) : Guarded n (attachCode p) :=
  have w := guarded_write n
  have h : ∀ c ∈ List.range p.nCh, Guarded n (attachChanCode p c) := fun c _ =>
    guarded_append (guarded_append (w c _ _) (w c _ _)) (w c _ _)
  guarded_append (l1 := .initState :: _) (guarded_flatMap n _ _ h) trivial

theorem guarded_startup (n : Nat) (p : Params) (c : Nat) : Guarded n (startupCode p c) :=
  have w := guarded_write n c
  have h1 := guarded_append (guarded_append (l1 := .acquireCh c :: writeCode c offIirFcr p.fcrReset) (w _ _)
    (l2 := [.sleep p.fifoResetDelay]) trivial) (w offIirFcr p.fcrEnable)
  have h2 := guarded_append (guarded_append h1 (w offLcr (lcrEncode .eight .one .off false))) (w offIer ierStartup)
  guarded_append (guarded_append (guarded_append h2 (l2 := [.forceOut2 c]) trivial) (guarded_mcr n c)) trivial

theorem guarded_shutdown (n : Nat) (p : Params) (c : Nat) : Guarded n (shutdownCode p c) := by
  have hp : Guarded n (powerDownCode p c) := guarded_flatMap n _ _ fun w _ => guarded_write n c w.reg w.value
  have hi : Guarded n (if c = 0 then writeCode c offIer 0x00#8 else []) := by
    split
    · exact guarded_write n c _ _
    · trivial
  exact guarded_append (guarded_append (guarded_append (guarded_append hi trivial) (guarded_write n c _ _)) hp) trivial

/-- Every request's statements stand behind their checks, whatever its operands (R131, R139, R140). -/
theorem guarded_request (n : Nat) (p : Params) (i : Instr) : Guarded n (requestCode p i) := by
  cases i with
  | read c r => exact guarded_append (guarded_read n c r) trivial
  | write c r v => exact guarded_write n c r v
  | burstWrite c r l => exact guarded_burstWrite n c r l
  | burstRead c k => exact guarded_append (guarded_burstRead n c k) trivial
  | update c r m v => exact guarded_update n c r m v
  | setDivisor c d => exact guarded_append (l1 := .acquireCh c :: _) (guarded_setDivisor n c d) trivial
  | beginTx c => exact guarded_beginTx n c
  | stopRx c => exact guarded_update n c _ _ _
  | setMctrl c bits => exact guarded_mcr n c
  | configFlow c en => exact guarded_append (l1 := .acquireCh c :: _) (guarded_flow n c en) trivial
  | attach => exact guarded_attach n p
  | startup c => exact guarded_startup n p c
  | shutdown c => exact guarded_shutdown n p c
  | computeDivisor clockHz target =>
    simp only [requestCode]
    split <;> trivial
  | _ => trivial

/-- The statements of every control state of the dispatcher stand behind their checks. -/
theorem guarded_dispatch (n : Nat) (d : DState) : Guarded n (dispatchCode d) := by
  cases d with
  | pollLsr c => exact guarded_append (guarded_read n c _) trivial
  | readIir c => exact guarded_append (guarded_read n c _) trivial
  | msi c => exact guarded_append (guarded_read n c _) trivial
  | rx c src st =>
    cases st with
    | start =>
      cases src with
      | rls => exact guarded_append (guarded_read n c _) trivial
      | rda => trivial
      | rto => trivial
    | flush => cases src <;> trivial
    | _ => cases src <;> exact guarded_append (guarded_read n c _) trivial
  | tx c st => cases st <;> trivial
  | _ => trivial

/-! ## One statement -/

theorem mem_txnObs {g : Agent} {k : BusKind} {c r : Nat} {cmd : Byte} {data : List Byte} {ok : Bool} {e : Event}
    (h : .txn e ∈ txnObs g k c r cmd data ok) : e = { agent := g, cmd := cmd, data := data, ok := ok } := by
  cases ok <;> simpa [txnObs] using h

/-- A read transaction in range is one the block may issue (R102, R110). -/
theorem State.Issued.received {s : State} (hs : s.Issued) (hn : s.params.nCh ≤ 8) (g : Agent) (k : BusKind) {c r n : Nat}
    (hc : c < s.params.nCh) (hr : r < 8) (h1 : 1 ≤ n) : (s.received g k c r n).Issued := by
  obtain ⟨hz, hw, -, hch⟩ := readCmd_fields (show c < 8 by omega) hr
  refine (issued_drawn _).mpr ((issued_show _ _).mpr ⟨hs, fun e he => ?_⟩)
  rw [mem_txnObs he]
  simp [eventOk, hz, hw, hch, hc, State.drawBytes, h1]

/-- A write transaction in range is one the block may issue (R103, R106, R110). -/
theorem State.Issued.sent {s : State} (hs : s.Issued) (hn : s.params.nCh ≤ 8) (g : Agent) (k : BusKind) {c r : Nat}
    {data : List Byte} (hc : c < s.params.nCh) (hr : r < 8) (h1 : 1 ≤ data.length) (hd : data.length ≤ Config.fifoDepth) :
    (s.sent g k c r data).Issued := by
  obtain ⟨hz, hw, -, hch⟩ := writeCmd_fields (show c < 8 by omega) hr
  refine (issued_drawn _).mpr ((issued_show _ _).mpr ⟨hs, fun e he => ?_⟩)
  rw [mem_txnObs he]
  simp [eventOk, hz, hch, hc, h1, hd]

theorem txnRead_issued {s : State} (hs : s.Issued) (hn : s.params.nCh ≤ 8) (g : Agent) {k : BusKind} {c r n : Nat}
    {rest : List Stmt} (h : Guarded s.params.nCh (.txnRead k c r n :: rest)) : (s.txnRead g k c r n rest).Issued := by
  obtain ⟨hc, hr, h1, hrest⟩ := h
  unfold State.txnRead
  split
  · split
    · exact hs.raise g _
    · exact (hs.received hn g k hc hr h1).setAgent hrest
  · exact hs

theorem txnWrite_issued {s : State} (hs : s.Issued) (hn : s.params.nCh ≤ 8) (g : Agent) {k : BusKind} {c r : Nat}
    {data : List Byte} {rest : List Stmt} (h : Guarded s.params.nCh (.txnWrite k c r data :: rest)) :
    (s.txnWrite g k c r data rest).Issued := by
  obtain ⟨hc, hr, h1, hd, hrest⟩ := h
  unfold State.txnWrite
  split
  · split
    · exact hs.raise g _
    · exact (hs.sent hn g k hc hr h1 hd).setAgent hrest
  · exact hs

/-- ATTACH's initialisation leaves no agent a statement but its own (R64). -/
theorem initState_issued {s : State} (hs : s.Issued) (g : Agent) {rest : List Stmt} (hr : Guarded s.params.nCh rest) :
    (s.initState g rest).Issued := by
  refine State.Issued.setAgent ⟨hs.1, fun h => ?_⟩ hr
  cases h with
  | dispatcher => trivial
  | _ c =>
    simp only [State.agent, State.chanAgents]
    rw [show ({} : ChanAgents) = ChanAgents.atAttach {} from rfl, List.getD_map]
    trivial

/-- A statement that stands behind its checks keeps the invariant: a check that passes lets what it guards go on, one that fails
stops its agent, and the statements a statement brings in stand behind checks of their own. -/
theorem doStmt_issued {s : State} (hs : s.Issued) (hn : s.params.nCh ≤ 8) (g : Agent) {m : Stmt} {rest : List Stmt}
    (h : Guarded s.params.nCh (m :: rest)) : (s.doStmt g m rest).Issued := by
  cases m
  case initState => exact initState_issued hs g h
  case attachDone => exact State.Issued.setAgent (s := { s with attached := true }) hs h
  case txnRead => exact txnRead_issued hs hn g h
  case txnWrite => exact txnWrite_issued hs hn g h
  case txnUpdate =>
    obtain ⟨hc, hr, hrest⟩ := h
    exact txnWrite_issued hs hn g ⟨hc, hr, by simp, by simp [Config.fifoDepth], hrest⟩
  case txnMcr =>
    obtain ⟨hc, hrest⟩ := h
    exact txnWrite_issued hs hn g ⟨hc, by simp [offMcr], by simp, by simp [Config.fifoDepth], hrest⟩
  case checkAddr c r =>
    simp only [State.doStmt]
    split
    · exact hs.setAgent (h ‹_›)
    · exact hs.raise g _
  case checkBurstWrite c startReg k =>
    simp only [State.doStmt]
    split
    · exact hs.raise g _
    · split
      · exact hs.raise g _
      · exact hs.setAgent (h ⟨by omega, by omega⟩)
  case checkBurstRead c k =>
    simp only [State.doStmt]
    split
    · exact hs.raise g _
    · split
      · exact hs.raise g _
      · exact hs.setAgent (h ⟨by omega, ‹_›⟩)
  case divisorWrites c d => exact hs.setAgent (guarded_append (guarded_divisorWrites _ c d _) h)
  case setLineStart c p =>
    simp only [State.doStmt, State.setLineStart]
    split
    · exact State.Issued.setAgent (by simpa using hs) h
    · split
      · exact State.Issued.setAgent (by simpa using hs) h
      · exact hs.setAgent (guarded_append (guarded_setLineLocked _ c p _ _ _) h)
  case settle c =>
    simp only [State.doStmt, State.settle]
    split
    · exact hs.setAgent (guarded_append (guarded_read _ c _) h)
    · exact hs.setAgent (guarded_append (guarded_settleTail _ c) h)
  case settleLsr c =>
    simp only [State.doStmt, State.settleLsr]
    split
    · exact hs.setAgent h
    · split <;> exact hs.setAgent (guarded_append (guarded_settleTail _ c) h)
  case rlsCheck c =>
    simp only [State.doStmt]
    split
    · exact hs.setAgent (guarded_append (guarded_read _ c _) h)
    · exact State.Issued.setAgent (by simpa using hs) h
  case beginSession c =>
    simp only [State.doStmt, State.beginSession]
    (repeat' split) <;> exact hs.setAgent h
  case rs485Start c cfg =>
    simp only [State.doStmt, State.rs485Start]
    split
    · exact hs.setAgent h
    · exact State.Issued.setAgent (by simpa using hs) h
  case txXChar c =>
    simp only [State.doStmt]
    split
    · exact hs.setAgent (guarded_append (guarded_write _ c _ _) h)
    · exact hs
  case txBurst c => exact State.Issued.setAgent (by simpa using hs) (guarded_append (guarded_burstWrite _ c _ _) h)
  all_goals
    have hrest : Guarded s.params.nCh rest := h
    simp only [State.doStmt, State.acquireBus, State.releaseBus, State.acquireCh, State.releaseCh, State.awaitTasks,
      State.getStatus, State.dispatchOn, State.classify, State.flush, State.txXCharDone, State.txBurstDone, State.nextCh,
      State.goDs_eq, State.goOn_eq]
    (repeat' split) <;> simp [hs, hrest, State.Issued.setAgent, State.Issued.raise]

theorem nextCode_guarded {s : State} (hs : s.Issued) (g : Agent) : Guarded s.params.nCh (s.nextCode g) := by
  unfold State.nextCode
  split
  · split
    · exact guarded_dispatch _ _
    · trivial
  · rename_i hc
    exact hc ▸ hs.2 g

/-- A step of an agent keeps the invariant, for a number of channels that a command byte can hold (R11, R101). -/
theorem agentStep_issued {s : State} (hs : s.Issued) (hn : s.params.nCh ≤ 8) (g : Agent) : (s.agentStep g).Issued := by
  obtain he | ⟨m, rest, hc, he⟩ := agentStep_cases s g
  · rwa [he]
  · rw [he]
    exact doStmt_issued hs hn g (hc ▸ nextCode_guarded hs g)

/-! ## The invariant -/

/-- The invariant in a controller whose channels a command byte can hold (R11). -/
def State.IssuedLegal (s : State) : Prop := s.params.nCh ≤ 8 ∧ s.Issued

/-- Every update that operations make outside the steps of an agent keeps the invariant. -/
theorem kept_issuedLegal : Kept State.IssuedLegal where
  step s g := fun ⟨hn, hs⟩ => ⟨by simpa, agentStep_issued hs hn g⟩
  signal _ _ := id
  ds _ _ := id
  unexpected s c v := fun ⟨hn, hs⟩ => ⟨hn, by simpa⟩
  start s g i p := fun ⟨hn, hs⟩ => ⟨by simpa, hs.setAgent (guarded_request _ _ i)⟩
  pend s g p := fun ⟨hn, hs⟩ => ⟨by simpa, hs.setAgent (hs.2 g)⟩
  dispatched s c rest := fun ⟨hn, hs⟩ hc =>
    ⟨by simpa, hs.setAgent (by simpa [State.agent, hc, Guarded] using hs.2 .dispatcher)⟩
  raise s g f := fun ⟨hn, hs⟩ => ⟨by simpa, hs.raise g f⟩
  fault _ _ := id

/-- A machine that steps has at most 8 channels (R11). -/
theorem nCh_le_of_step {s t : State} (h : step s = .next t) : s.params.nCh ≤ 8 := by
  unfold step at h
  split at h
  · rename_i ha
    simp only [Params.admissible, Bool.and_eq_true, decide_eq_true_eq] at ha
    obtain ⟨⟨⟨-, hn⟩, -⟩, -⟩ := ha
    exact hn
  · cases h

/-- Settles O55: the statements, the updates around them and the collaborator's acts keep the invariant, and a machine that
steps has at most 8 channels. -/
theorem stepKeepsIssuedLegal : Obligations.StepKeepsIssuedLegal := fun _ _ hs h =>
  (step_keeps kept_issuedLegal (fun _ => id) (fun _ _ _ => id) (fun _ _ _ => id) (fun _ _ _ => id) ⟨nCh_le_of_step h, hs⟩ h).2

end Sys2Proof.Machine
end

section
/-! SUPPORT. The bus operations of a ready agent: what each leaves when it runs to its end (R131 to R140), and what a channel or
an offset that does not exist leaves (R131, R247). -/

namespace Sys2Proof.Machine

/-! ## Requests run to their end -/

section

variable {s t : State} {g : Agent} {i : Instr} {m : Nat}

/-- An operation of a ready agent whose run comes to its end after `m + 1` statements in the state `t`, with `x` the bytes it read
last: the agent is idle again, and all else is as in `t` (R10, R40). -/
theorem exec_returns {x : List Byte} (hask : s.askedOf i = some g) (h : s.ready g = true) (hq : m + 1 ≤ s.quantum)
    (ht : t.runs g = true)
    (hrun : ∀ n, State.runWhile (State.hasCode g) (n + (m + 1)) g
      (s.setAgent g (ctl (requestCode s.params i) (s.agent g).acc [])) =
        State.runWhile (State.hasCode g) n g (t.setAgent g (ctl [] x []))) :
    exec i s = .next (t.setAgent g { s.agent g with acc := x }) := by
  obtain ⟨n, hn⟩ := quantum_split hq
  rw [exec_asked hask, request_ready h (by omega), hn, hrun, run_done (State.runs_hasAgent ht), resting_acc (ready_resting h)]

/-- An operation of a ready agent that comes to its end and reads nothing leaves its agent as it was (R10, R40). -/
theorem exec_leaves (hask : s.askedOf i = some g) (h : s.ready g = true) (hq : m + 1 ≤ s.quantum) (ht : t.runs g = true)
    (ha : t.agent g = s.agent g)
    (hrun : ∀ n, State.runWhile (State.hasCode g) (n + (m + 1)) g
      (s.setAgent g (ctl (requestCode s.params i) (s.agent g).acc [])) =
        State.runWhile (State.hasCode g) n g (t.setAgent g (ctl [] (s.agent g).acc []))) :
    exec i s = .next t := by
  rw [exec_returns hask h hq ht hrun, ← ha, State.setAgent_self]

/-- The bus is free where an agent is ready. -/
theorem ready_busLock (h : s.ready g = true) : s.busLock = .free := by
  obtain ⟨-, -, -, -, -, hb⟩ := resting_iff.mp (ready_resting h)
  exact hb

end

section

variable {p : State → Bool} {n : Nat} {g : Agent} {s : State} {rest : List Stmt} {acc : List Byte} {q : List Instr}

/-- The byte that READ got is returned (R134). -/
theorem run_retByte (h : s.runs g = true) (hp : Follows p g s.ds) :
    State.runWhile p (n + 1) g (s.setAgent g (ctl (.retByte :: rest) acc q)) =
      State.runWhile p n g ((s.show [.result g (.byte (acc.headD 0#8))]).setAgent g (ctl rest acc q)) :=
  run_show h rfl hp (by simp [State.doStmt, State.runs_hasAgent h])

/-- The bytes that BURST_READ got are returned (R140). -/
theorem run_retBytes (h : s.runs g = true) (hp : Follows p g s.ds) :
    State.runWhile p (n + 1) g (s.setAgent g (ctl (.retBytes :: rest) acc q)) =
      State.runWhile p n g ((s.show [.result g (.bytes acc)]).setAgent g (ctl rest acc q)) :=
  run_show h rfl hp (by simp [State.doStmt, State.runs_hasAgent h])

end

/-! ## The five bus operations -/

/-- Settles O11: the four statements of READ (`run_read`), then its byte is returned. -/
theorem readReturnsByte : Obligations.ReadReturnsByte := by
  intro s c r h hc hr hz hq
  have hrun := ready_runs h
  refine exec_returns (m := 4) rfl h hq (by simpa using hrun) fun n => ?_
  exact (run_read hrun hc hr (ready_busLock h) hz rfl (follows_hasCode _ _)).trans
    (run_retByte (by simpa using hrun) (follows_hasCode _ _))

/-- Settles O12: the four statements of WRITE (`run_write`). -/
theorem writeSendsValue : Obligations.WriteSendsValue := by
  intro s c r v h hc hr hz hq
  have hrun := ready_runs h
  refine exec_leaves (m := 3) rfl h hq (by simpa using hrun) (by simp) fun n => ?_
  exact run_write (rest := []) hrun hc hr (ready_busLock h) hz rfl (follows_hasCode _ _)

/-- Settles O13: the five statements of UPDATE (`run_update`), under one hold of the bus lock. -/
theorem updateReadsThenWrites : Obligations.UpdateReadsThenWrites := by
  intro s c r mask value h hc hr hzr hzw hq
  have hrun := ready_runs h
  refine exec_returns (m := 4) rfl h hq (by simpa using hrun) fun n => ?_
  exact run_update (rest := []) hrun hc hr (ready_busLock h) hzr hzw rfl (follows_hasCode _ _)

/-- Settles O14: the four statements of BURST_WRITE (`run_burstWrite`). -/
theorem burstWriteSendsBytes : Obligations.BurstWriteSendsBytes := by
  intro s c bytes h hc h1 h16 hz hq
  have hrun := ready_runs h
  refine exec_leaves (m := 3) rfl h hq (by simpa using hrun) (by simp) fun n => ?_
  exact run_burstWrite (rest := []) hrun hc (Nat.one_le_iff_ne_zero.mp h1) h16 (ready_busLock h) hz rfl (follows_hasCode _ _)

/-- Settles O15: the four statements of BURST_READ (`run_burstRead`), then its bytes are returned. -/
theorem burstReadReturnsBytes : Obligations.BurstReadReturnsBytes := by
  intro s c k h hc h1 hz hq
  have hrun := ready_runs h
  refine exec_returns (m := 4) rfl h hq (by simpa using hrun) fun n => ?_
  exact (run_burstRead hrun hc (Nat.one_le_iff_ne_zero.mp h1) (ready_busLock h) hz rfl (follows_hasCode _ _)).trans
    (run_retBytes (by simpa using hrun) (follows_hasCode _ _))

/-! ## What a transaction shows -/

section

variable {s : State} {ok : Bool} {b : Byte} {rest : List Draw}

/-- The next answer of the core decides whether the transaction succeeds (R132). -/
theorem drawOk_of_oracle (ho : s.oracle = { ok := ok, bytes := [b] } :: rest) : s.drawOk = ok := by
  rw [State.drawOk, ho]

/-- The next answer of the core gives the byte read (R84). -/
theorem drawBytes_of_oracle (ho : s.oracle = { ok := ok, bytes := [b] } :: rest) : s.drawBytes 1 = [b] := by
  simp [State.drawBytes, ho, List.range_one]

/-- A read transaction, written out (R132, R133). -/
theorem received_of_oracle (ho : s.oracle = { ok := ok, bytes := [b] } :: rest) (g : Agent) (k : BusKind) (c r : Nat) :
    s.received g k c r 1 = { s with
      out := s.out ++ txnObs g k c r (readCmd c r) [b] ok, oracle := rest, draws := s.draws + 1 } := by
  simp [State.received, State.drawn, State.show, drawOk_of_oracle ho, drawBytes_of_oracle ho, ho]

/-- A write transaction, written out (R132, R133). -/
theorem sent_of_oracle (ho : s.oracle = { ok := ok, bytes := [b] } :: rest) (g : Agent) (k : BusKind) (c r : Nat)
    (data : List Byte) : s.sent g k c r data = { s with
      out := s.out ++ txnObs g k c r (writeCmd c r) data ok, oracle := rest, draws := s.draws + 1 } := by
  simp [State.sent, State.drawn, State.show, drawOk_of_oracle ho, ho]

end

/-- Settles O16: READ and WRITE are one transaction (O11, O12), and the core's answer says what it shows. -/
theorem transactionIsShown : Obligations.TransactionIsShown := by
  intro s c r v b ok rest h hc hr ho hq
  refine ⟨fun hz => ?_, fun hz => ?_⟩
  · rw [readReturnsByte s c r h hc hr hz hq, received_of_oracle ho, drawBytes_of_oracle ho]
    simp [State.show, txnObs]
  · rw [writeSendsValue s c r v h hc hr hz (by omega), sent_of_oracle ho]
    simp [txnObs]

/-! ## Channels and offsets that do not exist -/

section

variable {s : State} {g : Agent} {c : Nat} {rest : List Stmt}

/-- The address check, not met (R131). -/
theorem doStmt_checkAddr_missing {r : Nat} (h : ¬(c < s.params.nCh ∧ r < 8)) :
    s.doStmt g (.checkAddr c r) rest = s.raise g (.badAddress c (some r)) := if_neg h

/-- The first check of BURST_WRITE, not met (R139). -/
theorem doStmt_checkBurstWrite_missing (startReg n : Nat) (h : s.params.nCh ≤ c) :
    s.doStmt g (.checkBurstWrite c startReg n) rest = s.raise g (.badAddress c (some startReg)) := if_pos (Nat.not_lt.mpr h)

/-- The first check of BURST_READ, not met (R140). -/
theorem doStmt_checkBurstRead_missing (n : Nat) (h : s.params.nCh ≤ c) :
    s.doStmt g (.checkBurstRead c n) rest = s.raise g (.badAddress c (some 0)) := if_pos (Nat.not_lt.mpr h)

end

/-- A bus operation whose first statement raises `f`, whatever its caller's control state: `f` is recorded and the calling agent
stops, with no transaction and no lock (R131, R246). -/
theorem exec_raises {s : State} {i : Instr} {f : ModelFault} {m : Stmt} {rest : List Stmt} (h : s.ready s.turn = true)
    (hq : 1 ≤ s.quantum) (hask : s.askedOf i = some s.turn) (hcode : requestCode s.params i = m :: rest)
    (hd : ∀ t : State, t.params = s.params → t.doStmt s.turn m rest = t.raise s.turn f) :
    ∃ code, exec i s = .next (State.setAgent
      { s with faults := if f ∈ s.faults then s.faults else s.faults ++ [f] } s.turn
        { s.agent s.turn with code := code, stopped := true }) :=
  ⟨m :: rest, by rw [exec_asked hask, request_raises h hq hcode fun a => hd _ (by simp)]; rfl⟩

/-- The operation `i` is requested of an agent of channel `c` and names no offset (R131, log 5). TX_SETTLE is not where the
dispatcher is at that point of its own transmit service (log 17). -/
def State.asksChannel (s : State) (c : Nat) (i : Instr) : Prop :=
  (∃ d, i = .setDivisor c d) ∨ (∃ p, i = .setLine c p) ∨ (i = .txSettle c ∧ s.ds ≠ .tx c .settle) ∨ i = .beginTx c ∨
    i = .stopTx c ∨ i = .stopRx c ∨ (∃ bits, i = .setMctrl c bits) ∨ i = .getStatus c ∨ (∃ on, i = .configFlow c on) ∨
    i = .rs485Get c ∨ (∃ cfg, i = .rs485Set c cfg) ∨ i = .startup c ∨ i = .shutdown c

/-- Each of them is a request about channel `c` of one of its agents (R9, R228). -/
theorem exec_asksChannel {s : State} {c : Nat} {i : Instr} (h : s.asksChannel c i) :
    ∃ g, exec i s = .next (s.requestOn c g i) := by
  obtain ⟨_, rfl⟩ | ⟨_, rfl⟩ | ⟨rfl, hds⟩ | rfl | rfl | rfl | ⟨_, rfl⟩ | rfl | ⟨_, rfl⟩ | rfl | ⟨_, rfl⟩ | rfl | rfl := h
  case inr.inr.inl =>
    have hn : ¬(s.turn = .dispatcher ∧ s.dispatcherAt (.tx c .settle) = true) := by simp [State.dispatcherAt, hds]
    exact ⟨.stopTx c, by rw [exec, execTxSettle, if_neg hn]⟩
  all_goals exact ⟨_, rfl⟩

/-- A request about a channel that does not exist: the fault is recorded once ATTACH has ended (R131, R273, log 5). -/
theorem requestOn_missing {s : State} {c : Nat} (hc : s.params.nCh ≤ c) (g : Agent) (i : Instr) :
    s.requestOn c g i = if s.attached then s.addFault (.badAddress c none) else s := if_neg (Nat.not_lt.mpr hc)

/-- Settles O17: the first statement of each bus operation raises the fault; a request about a missing channel records it. -/
theorem badAddressStopsCaller : Obligations.BadAddressStopsCaller := by
  refine ⟨fun s c r i h hq hi => ?_, fun s c i hc hi => ?_⟩
  · obtain ⟨hn, hi⟩ | ⟨hc, ⟨bytes, rfl⟩ | ⟨rfl, n, rfl⟩⟩ := hi
    · obtain rfl | ⟨v, rfl⟩ | ⟨mask, value, rfl⟩ := hi <;>
        exact exec_raises h hq rfl rfl fun t ht => doStmt_checkAddr_missing (by rwa [ht])
    · exact exec_raises h hq rfl rfl fun t ht => doStmt_checkBurstWrite_missing r _ (by rwa [ht])
    · exact exec_raises h hq rfl rfl fun t ht => doStmt_checkBurstRead_missing n (by rwa [ht])
  · obtain ⟨g, hx⟩ := exec_asksChannel hi
    rw [requestOn_missing hc] at hx
    exact ⟨fun ha => by rw [hx, if_pos ha]; rfl, fun ha => by rw [hx, if_neg (by simp [ha])]⟩

end Sys2Proof.Machine
end

section
/-! SUPPORT. The divisor and the line setting: COMPUTE_DIVISOR as arithmetic (R150, R155), the line-control byte as its fields (R160),
the operands of SET_LINE (R162), the divisor window while its sequence runs (R156), and SET_LINE run to its end (R163). -/

namespace Sys2Proof.Machine

/-! ## The divisor as arithmetic -/

/-- COMPUTE_DIVISOR rejects a target of 0 and a quotient of 0 or above 65535 (R150). -/
theorem computeDivisor_rejected {clockHz target : Nat}
    (h : target = 0 ∨ clockHz / (16 * target) = 0 ∨ 65535 < clockHz / (16 * target)) :
    computeDivisor clockHz target = .error (.baudOutOfRange target) := by
  unfold computeDivisor rawDivisor
  split
  · rfl
  · split
    · rfl
    · exact if_pos (by omega)

/-- COMPUTE_DIVISOR accepts every other target, with the floor quotient and its rounded rate (R150, R154). -/
theorem computeDivisor_accepted {clockHz target : Nat}
    (h : ¬(target = 0 ∨ clockHz / (16 * target) = 0 ∨ 65535 < clockHz / (16 * target))) :
    computeDivisor clockHz target =
      .ok (BitVec.ofNat 16 (clockHz / (16 * target)), achievedBaud clockHz (clockHz / (16 * target))) := by
  obtain ⟨h0, h1, h2⟩ : target ≠ 0 ∧ clockHz / (16 * target) ≠ 0 ∧ ¬65535 < clockHz / (16 * target) := by
    simpa only [not_or] using h
  rw [computeDivisor, if_neg h0]
  exact (if_neg h1).trans (if_neg h2)

/-- What an accepted input says: the divisor is the quotient, it fits into 16 bits, and the rate is its rounded rate. -/
theorem computeDivisor_ok {clockHz target achieved : Nat} {d : Half} (h : computeDivisor clockHz target = .ok (d, achieved)) :
    d.toNat = clockHz / (16 * target) ∧ 1 ≤ d.toNat ∧ d.toNat ≤ 65535 ∧ achieved = achievedBaud clockHz d.toNat := by
  by_cases hr : target = 0 ∨ clockHz / (16 * target) = 0 ∨ 65535 < clockHz / (16 * target)
  · rw [computeDivisor_rejected hr] at h
    cases h
  · rw [computeDivisor_accepted hr] at h
    cases h
    have hd : (BitVec.ofNat 16 (clockHz / (16 * target))).toNat = clockHz / (16 * target) :=
      Nat.mod_eq_of_lt (by omega)
    rw [hd]
    exact ⟨rfl, by omega, by omega, rfl⟩

/-- The rounded rate is within one half of `clockHz / (16 d)` (R154, R155). -/
theorem achievedBaud_within_half (clockHz : Nat) {d : Nat} (hd : 1 ≤ d) :
    achievedBaud clockHz d * (16 * d) ≤ clockHz + 8 * d ∧ clockHz ≤ achievedBaud clockHz d * (16 * d) + 8 * d := by
  have hfloor := Nat.div_add_mod (clockHz + 8 * d) (16 * d)
  have hrest := Nat.mod_lt (clockHz + 8 * d) (show 0 < 16 * d by omega)
  rw [achievedBaud, Nat.mul_comm]
  omega

/-- The floor divisor is no larger than the exact one, so its rate is not below the target (R155). -/
theorem target_le_achievedBaud {clockHz target : Nat} (hd : 1 ≤ clockHz / (16 * target)) :
    target ≤ achievedBaud clockHz (clockHz / (16 * target)) := by
  have hfloor := Nat.div_mul_le_self clockHz (16 * target)
  rw [achievedBaud, Nat.le_div_iff_mul_le (by omega)]
  calc target * (16 * (clockHz / (16 * target)))
    _ = clockHz / (16 * target) * (16 * target) := by ring
    _ ≤ clockHz + 8 * (clockHz / (16 * target)) := by omega

/-- A value returned to the caller (R114). -/
theorem run_ret {p : State → Bool} {s : State} {g : Agent} {n : Nat} {r : Result} {rest : List Stmt} {acc : List Byte}
    {q : List Instr} {d0 : DState} (h : s.runs g = true) (hd : s.ds = d0) (hp : Follows p g d0) :
    State.runWhile p (n + 1) g (s.setAgent g (ctl (.ret r :: rest) acc q)) =
      State.runWhile p n g ((s.show [.result g r]).setAgent g (ctl rest acc q)) :=
  run_show h hd hp (by simp [State.doStmt, State.runs_hasAgent h])

/-- A request of the calling agent that only returns a value (R114). -/
theorem exec_ret {s : State} {i : Instr} {r : Result} (h : s.ready s.turn = true) (hq : 1 ≤ s.quantum)
    (hask : s.askedOf i = some s.turn) (hcode : requestCode s.params i = [.ret r]) :
    exec i s = .next (s.show [.result s.turn r]) := by
  have hg := State.runs_hasAgent (ready_runs h)
  rw [exec_asked hask, request_show (l := [.result s.turn r]) h hq hcode (by simp [State.doStmt, hg])]

/-- Settles O23: the request returns what `computeDivisor` answers, the rejection or the quotient and its rate. -/
theorem computeDivisorResult : Obligations.ComputeDivisorResult := by
  intro s clockHz target h hq
  by_cases hr : target = 0 ∨ clockHz / (16 * target) = 0 ∨ 65535 < clockHz / (16 * target)
  · rw [if_pos hr]
    exact exec_ret h hq rfl (by rw [requestCode, computeDivisor_rejected hr])
  · rw [if_neg hr]
    exact exec_ret h hq rfl (by rw [requestCode, computeDivisor_accepted hr, achievedBaud])

/-- Settles O24: the divisor is the floor quotient, its rate is rounded to the nearest, and the floor errs on the fast side. -/
theorem divisorWithinBounds : Obligations.DivisorWithinBounds := by
  intro clockHz target achieved d h
  obtain ⟨hd, h1, h2, rfl⟩ := computeDivisor_ok h
  obtain ⟨hlo, hhi⟩ := achievedBaud_within_half clockHz h1
  exact ⟨h1, h2, hlo, hhi, hd ▸ target_le_achievedBaud (hd ▸ h1)⟩

/-! ## The line-control byte -/

/-- The word length field of the line-control byte: the length less 5 (R59, R160). -/
def wordLenField : WordLen → BitVec 2
  | .five => 0#2
  | .six => 1#2
  | .seven => 2#2
  | .eight => 3#2

/-- The parity mode field of the line-control byte (R59, R160; the order PRESUMED, log 11). -/
def parityField : Parity → BitVec 2
  | .off => 0#2
  | .odd => 0#2
  | .even => 1#2
  | .mark => 2#2
  | .space => 3#2

/-- The word length sets bits 1:0 only. -/
theorem wordLenBits_eq (w : WordLen) : wordLenBits w = 0#6 ++ wordLenField w := by cases w <;> rfl

/-- The stop bits set bit 2 only. -/
theorem stopBitsBits_eq (st : StopBits) : stopBitsBits st = 0#5 ++ BitVec.ofBool (st == .two) ++ 0#2 := by cases st <;> rfl

/-- The parity sets bits 5:3 only. -/
theorem parityBits_eq (p : Parity) :
    parityBits p = 0#2 ++ parityField p ++ BitVec.ofBool (p != .off) ++ 0#3 := by cases p <;> rfl

/-- The four parts of the line-control byte lie side by side, bit 7 clear (R160). -/
theorem lcrEncode_eq (w : WordLen) (st : StopBits) (p : Parity) (brk : Bool) :
    lcrEncode w st p brk = 0#1 ++ BitVec.ofBool brk ++ parityField p ++ BitVec.ofBool (p != .off) ++
      BitVec.ofBool (st == .two) ++ wordLenField w := by
  rw [lcrEncode, wordLenBits_eq, stopBitsBits_eq, parityBits_eq]
  generalize wordLenField w = a, (st == .two) = b, parityField p = m, (p != .off) = e
  revert a b m e brk
  decide

/-- Settles O26: LCR_ENCODE returns the byte, and each field is read off its parts side by side. -/
theorem lcrEncodeFields : Obligations.LcrEncodeFields := by
  intro s w st p brk h hq
  refine ⟨lcrEncode w st p brk, exec_ret h hq rfl rfl, ?_⟩
  change (lcrEncode w st p brk).extractLsb' 0 2 = wordLenField w ∧ _ ∧ _ ∧
    (lcrEncode w st p brk).extractLsb' 4 2 = parityField p ∧ _
  rw [lcrEncode_eq]
  generalize wordLenField w = a, (st == .two) = b, parityField p = m, (p != .off) = e
  revert a b m e brk
  decide

/-! ## The operands of SET_LINE -/

/-- A word length in its set, and its field as a number (R160, R162). -/
theorem wordLenOf_some {n : Nat} {w : WordLen} (h : wordLenOf n = some w) :
    5 ≤ n ∧ n ≤ 8 ∧ wordLenBits w = BitVec.ofNat 8 (n - 5) := by
  unfold wordLenOf at h
  split at h <;> cases h <;> decide

/-- A stop-bit count in its set, and its bit (R160, R162). -/
theorem stopBitsOf_some {n : Nat} {st : StopBits} (h : stopBitsOf n = some st) :
    (n = 1 ∨ n = 2) ∧ stopBitsBits st = if n = 2 then 0x04#8 else 0x00#8 := by
  unfold stopBitsOf at h
  split at h <;> cases h <;> decide

/-- A line request that has a line-control byte has its operands in their sets, and the byte is LCR_ENCODE of them, the break bit 0
(R160, R162, R163). -/
theorem lineLcr_some {p : LineParams} {lcr : Byte} (h : lineLcr p = some lcr) :
    5 ≤ p.wordLen ∧ p.wordLen ≤ 8 ∧ (p.stopBits = 1 ∨ p.stopBits = 2) ∧ ∃ par, p.parity = some par ∧
      lcr = BitVec.ofNat 8 (p.wordLen - 5) ||| (if p.stopBits = 2 then 0x04#8 else 0x00#8) ||| parityBits par := by
  unfold lineLcr at h
  split at h
  · rename_i w st par hw hst hp
    obtain ⟨h5, h8, hwv⟩ := wordLenOf_some hw
    obtain ⟨hs, hsv⟩ := stopBitsOf_some hst
    cases h
    exact ⟨h5, h8, hs, par, hp, by simp [lcrEncode, hwv, hsv]⟩
  · cases h

/-- Operands outside their sets have no line-control byte (R162). -/
theorem lineLcr_none {p : LineParams}
    (h : ¬(5 ≤ p.wordLen ∧ p.wordLen ≤ 8 ∧ (p.stopBits = 1 ∨ p.stopBits = 2) ∧ p.parity ≠ none)) : lineLcr p = none := by
  refine Option.eq_none_iff_forall_ne_some.mpr fun lcr hl => h ?_
  obtain ⟨h5, h8, hs, par, hp, -⟩ := lineLcr_some hl
  exact ⟨h5, h8, hs, by simp [hp]⟩

/-- The line-control byte of operands in their sets (R160, R163). -/
theorem lineLcr_eq {p : LineParams} {par : Parity} (h5 : 5 ≤ p.wordLen) (h8 : p.wordLen ≤ 8)
    (hs : p.stopBits = 1 ∨ p.stopBits = 2) (hp : p.parity = some par) :
    lineLcr p =
      some (BitVec.ofNat 8 (p.wordLen - 5) ||| (if p.stopBits = 2 then 0x04#8 else 0x00#8) ||| parityBits par) := by
  obtain ⟨lcr, hl⟩ := lineLcr_of_sets h5 h8 hs (by simp [hp])
  obtain ⟨-, -, -, par', hp', rfl⟩ := lineLcr_some hl
  rw [hl, Option.some.inj (hp.symm.trans hp')]

/-- SET_LINE that its checks reject returns the rejection and leaves all else as it was (R162, R163). -/
theorem exec_setLine_rejected {s : State} {c : Nat} {p : LineParams} {e : Rejection} (h : s.ready (.config c) = true)
    (hc : c < s.params.nCh) (hq : 1 ≤ s.quantum)
    (hm : ∀ t : State, t.params = s.params →
      t.setLineStart (.config c) c p [] = (t.show [.result (.config c) (.rejected e)]).goOn (.config c) []) :
    exec (.setLine c p) s = .next (s.show [.result (.config c) (.rejected e)]) := by
  have hask : s.askedOf (.setLine c p) = some (.config c) := if_pos hc
  have hg := State.runs_hasAgent (ready_runs h)
  rw [exec_asked hask, request_show (l := [.result (.config c) (.rejected e)]) h hq rfl
    (by rw [State.doStmt, hm _ (by simp)]; simp [hg])]

/-- Settles O28: the checks of SET_LINE stand before its lock, the operands first and then the rate. -/
theorem setLineRejects : Obligations.SetLineRejects := by
  intro s c p h hc hq
  refine ⟨fun hn => exec_setLine_rejected h hc hq fun t _ => ?_, fun ⟨h5, h8, hs, hp⟩ e he =>
    exec_setLine_rejected h hc hq fun t ht => ?_⟩
  · rw [State.setLineStart, lineLcr_none hn]
  · obtain ⟨lcr, hl⟩ := lineLcr_of_sets h5 h8 hs hp
    rw [State.setLineStart, hl, ht]
    simp only [he]

/-! ## The divisor window -/

/-- The statements of READ and WRITE: each waits, raises a fault, or goes on with what follows it (R134, R135). -/
def Stmt.ofBus : Stmt → Bool
  | .checkAddr _ _ | .acquireBus | .releaseBus | .txnRead _ _ _ _ | .txnWrite _ _ _ _ => true
  | _ => false

theorem readCode_ofBus (c r : Nat) : ∀ m ∈ readCode c r, m.ofBus = true := by simp [readCode, Stmt.ofBus]

theorem Stmt.plain_of_ofBus {m : Stmt} (h : m.ofBus = true) : m.plain = true := by cases m <;> simp_all [Stmt.ofBus, Stmt.plain]

@[simp] theorem raise_dlabWindow (s : State) (g : Agent) (f : ModelFault) : (s.raise g f).dlabWindow = s.dlabWindow := by
  simp only [State.raise, State.dropBus]
  split <;> simp

/-- What a statement of READ or WRITE leaves: the divisor window, and its agent's statements or those after it. -/
theorem doStmt_ofBus {s : State} {g : Agent} {m : Stmt} {rest : List Stmt} (hm : m.ofBus = true) (hg : s.hasAgent g = true) :
    (s.doStmt g m rest).dlabWindow = s.dlabWindow ∧
      (((s.doStmt g m rest).agent g).code = (s.agent g).code ∨ ((s.doStmt g m rest).agent g).code = rest) := by
  cases m <;> simp only [Stmt.ofBus, Bool.false_eq_true] at hm
  all_goals
    simp only [State.doStmt, State.acquireBus, State.releaseBus, State.txnRead, State.txnWrite]
    (repeat' split) <;> simp [raise_code, hg]

/-- Agent `g` has the divisor window open on channel `c`, under that channel's lock (R156, R157). -/
def State.InWindow (s : State) (g : Agent) (c : Nat) : Prop :=
  s.dlabWindow = some (g, c) ∧ (s.chan c).chLock = .held g

/-- The next `n` statements of agent `g` are of READ and WRITE. -/
def State.BusNext (s : State) (g : Agent) (n : Nat) : Prop :=
  ∃ ops rest, (s.agent g).code = ops ++ rest ∧ n ≤ ops.length ∧ ∀ m ∈ ops, m.ofBus = true

/-- A step of READ or WRITE keeps the window open and the lock held, and uses up one statement, or none where it waits. -/
theorem agentStep_inWindow {s : State} {g : Agent} {c n : Nat} (hg : s.hasAgent g = true) (hw : s.InWindow g c)
    (hb : s.BusNext g (n + 1)) :
    (s.agentStep g).hasAgent g = true ∧ (s.agentStep g).InWindow g c ∧ (s.agentStep g).BusNext g n := by
  obtain ⟨_ | ⟨m, ops⟩, rest, hcode, hlen, hops⟩ := hb
  · simp at hlen
  obtain he | ⟨m', rest', hn, he⟩ := agentStep_cases s g
  · rw [he]
    exact ⟨hg, hw, m :: ops, rest, hcode, by omega, hops⟩
  · simp only [State.nextCode, hcode, List.cons_append, List.cons.injEq] at hn
    obtain ⟨rfl, rfl⟩ := hn
    have hm : m.ofBus = true := hops m (by simp)
    have hshape := doStmt_shapeKept (m := m) (by rintro rfl; cases hm) s g (ops ++ rest)
    obtain ⟨hwin, hnext⟩ := doStmt_ofBus (rest := ops ++ rest) hm hg
    rw [he]
    refine ⟨by rwa [hasAgent_of_tasks_length hshape.tasks],
      ⟨hwin.trans hw.1, (doStmt_plain_chLock (Stmt.plain_of_ofBus hm) ..).trans hw.2⟩, ?_⟩
    obtain hstay | hgo := hnext
    · exact ⟨m :: ops, rest, hstay.trans hcode, by omega, hops⟩
    · exact ⟨ops, rest, hgo, by simpa using hlen, fun m' hm' => hops m' (by simp [hm'])⟩

/-- A run through statements of READ and WRITE keeps the window open and the lock held (R156, R157). -/
theorem runWhile_inWindow {p : State → Bool} {g : Agent} {c : Nat} (n : Nat) : ∀ {s : State}, s.hasAgent g = true →
    s.InWindow g c → s.BusNext g n → (State.runWhile p n g s).InWindow g c := by
  induction n with
  | zero => exact fun _ hw _ => hw
  | succ n ih =>
    intro s hg hw hb
    obtain ⟨hg', hw', hb'⟩ := agentStep_inWindow hg hw hb
    simp only [State.runWhile]
    split
    · exact ih hg' hw' hb'
    · exact hw

section

variable {p : State → Bool} {g : Agent} {s : State} {c : Nat} {d : Half} {rest : List Stmt} {acc : List Byte} {q : List Instr}
  {d0 : DState}

/-- The writes of SET_DIVISOR, then the end of the window (R156). -/
theorem divisorWritesCode_eq (c : Nat) (d : Half) (lcr : Byte) : ∃ ops, divisorWritesCode c d lcr = ops ++ [.closeWindow] ∧
    ops.length = 16 ∧ ∀ m ∈ ops, m.ofBus = true :=
  ⟨_, rfl, rfl, by simp [writeCode, Stmt.ofBus]⟩

/-- The opening of the divisor window (R156). -/
theorem run_openWindow {n : Nat} (h : s.runs g = true) (hd : s.ds = d0) (hp : Follows p g d0) :
    State.runWhile p (n + 1) g (s.setAgent g (ctl (.openWindow c :: rest) acc q)) =
      State.runWhile p n g ((s.withWindow (some (g, c))).setAgent g (ctl rest acc q)) := by
  have hg := State.runs_hasAgent h
  exact run_goOn h (hp.loaded hd hg) (by simp [State.doStmt, hg])

/-- SET_DIVISOR up to its last write: from its first statement on, for as long as the window's end is not reached, the window is
the agent's and the lock is held (R156, R157). -/
theorem run_setDivisor_inWindow {k : Nat} (h : s.runs g = true) (hc : c < s.params.nCh) (hb : s.busLock = .free)
    (hl : (s.chan c).life ≠ .shut ∨ ∃ e, g = .config e) (hlock : (s.chan c).chLock = .held g) (hd : s.ds = d0)
    (hp : Follows p g d0) (hk : k ≤ 21) :
    (State.runWhile p (k + 1) g (s.setAgent g (ctl (setDivisorCode c d ++ rest) acc q))).InWindow g c := by
  have hg := State.runs_hasAgent h
  rw [setDivisorCode, List.cons_append, List.cons_append, run_openWindow h hd hp, List.append_assoc]
  by_cases hk4 : k ≤ 4
  · exact runWhile_inWindow k (by simpa using hg) ⟨by simp, by simpa using hlock⟩
      ⟨readCode c offLcr, _, by simp [hg]; rfl, hk4, readCode_ofBus c offLcr⟩
  · obtain ⟨j, rfl⟩ : ∃ j, k = j + 1 + 4 := ⟨k - 5, by omega⟩
    rw [run_read (by simpa using h) (by simpa using hc) (by decide) (by simpa using hb)
        (hazard_free (Or.inr ⟨c, by simp⟩) (by simpa using hl)) (by simpa using hd) hp,
      State.withWindow_received, State.withWindow_drawBytes, List.cons_append, List.nil_append,
      run_goOn (acc' := s.drawBytes 1) (code := divisorWritesCode c d ((s.drawBytes 1).headD 0#8) ++ rest)
        (t := (s.received g .read c offLcr 1).withWindow (some (g, c))) (by simpa using h)
        (hp.loaded (by simpa using hd) (by simpa using hg)) (by simp [State.doStmt, hg])]
    obtain ⟨ops, hops, hlen, hbus⟩ := divisorWritesCode_eq c d ((s.drawBytes 1).headD 0#8)
    rw [hops]
    exact runWhile_inWindow j (by simpa using hg) ⟨by simp, by simpa using hlock⟩
      ⟨ops, .closeWindow :: rest, by simp [hg], by omega, hbus⟩

@[simp] theorem divisorSet_runs (s : State) (g h : Agent) (c : Nat) (d : Half) : (s.divisorSet g c d).runs h = s.runs h := by
  simp [State.divisorSet]
@[simp] theorem divisorSet_hasAgent (s : State) (g h : Agent) (c : Nat) (d : Half) :
    (s.divisorSet g c d).hasAgent h = s.hasAgent h := by
  simp [State.divisorSet]
@[simp] theorem divisorSet_chan (s : State) (g : Agent) (c e : Nat) (d : Half) : (s.divisorSet g c d).chan e = s.chan e := by
  simp [State.divisorSet]
@[simp] theorem divisorSet_ch (s : State) (g : Agent) (c : Nat) (d : Half) : (s.divisorSet g c d).ch = s.ch := by
  simp [State.divisorSet]
@[simp] theorem divisorSet_ds (s : State) (g : Agent) (c : Nat) (d : Half) : (s.divisorSet g c d).ds = s.ds := by
  simp [State.divisorSet]
@[simp] theorem divisorSet_params (s : State) (g : Agent) (c : Nat) (d : Half) : (s.divisorSet g c d).params = s.params := by
  simp [State.divisorSet]
@[simp] theorem divisorSet_busLock (s : State) (g : Agent) (c : Nat) (d : Half) : (s.divisorSet g c d).busLock = s.busLock := by
  simp [State.divisorSet]
@[simp] theorem divisorSet_dlabWindow (s : State) (g : Agent) (c : Nat) (d : Half) :
    (s.divisorSet g c d).dlabWindow = s.dlabWindow := by
  simp [State.divisorSet]
@[simp] theorem divisorSet_setChan (s : State) (g : Agent) (c e : Nat) (d : Half) (x : Chan) :
    (s.setChan e x).divisorSet g c d = (s.divisorSet g c d).setChan e x := by
  simp [State.divisorSet]

end

/-- A request of SET_DIVISOR runs the sequence under the channel lock (R157, log 17). -/
theorem requestCode_setDivisor (p : Params) (c : Nat) (d : Half) :
    requestCode p (.setDivisor c d) = .acquireCh c :: (setDivisorCode c d ++ [.releaseCh c]) := rfl

/-- A channel record whose lock is free is itself with the lock given back. -/
theorem chan_unlock {x : Chan} (h : x.chLock = .free) : { x with chLock := .free } = x := by
  cases x
  cases h
  rfl

/-- A channel written back with the record it holds is unchanged. -/
theorem setChan_same {s : State} {c : Nat} {x : Chan} (h : s.chan c = x) : s.setChan c x = s := by
  subst h
  exact s.setChan_self c

/-- SET_DIVISOR of a ready configuration agent under the free lock, run to its end (R156 to R158). -/
theorem exec_setDivisor {s : State} {c : Nat} {d : Half} (h : s.ready (.config c) = true) (hc : c < s.params.nCh)
    (hlen : c < s.ch.length) (hf : (s.chan c).chLock = .free) (hq : 25 ≤ s.quantum) :
    exec (.setDivisor c d) s = .next (((s.divisorSet (.config c) c d).withWindow none).setAgent (.config c)
      { s.agent (.config c) with acc := s.drawBytes 1 }) := by
  have hrun := ready_runs h
  have hp := follows_hasCode (.config c) s.ds
  refine exec_returns (m := 24) (if_pos hc) h hq (by simpa using hrun) fun n => ?_
  rw [requestCode_setDivisor, run_acquireCh hrun hf rfl hp, show n + 24 = n + 1 + 23 by rfl,
    run_setDivisor (by simpa using hrun) (by simpa using hc) (by simpa using ready_busLock h) (Or.inr ⟨c, rfl⟩) (by simp) hp,
    run_releaseCh (by simpa using hrun) (by simp [hlen]) (by simp) hp]
  simp [hlen, chan_unlock hf, setChan_same]

/-- Settles O25: the sequence run to its end (`exec_setDivisor`), cut off before its last write has ended
(`run_setDivisor_inWindow`), and waiting at its acquisition. -/
theorem setDivisorSequence : Obligations.SetDivisorSequence := by
  intro s c d h hc hlen
  have hask : s.askedOf (.setDivisor c d) = some (.config c) := if_pos hc
  refine ⟨exec_setDivisor h hc hlen, fun hf h2 h23 => ⟨_, exec_asked hask, ?_⟩, fun g hl hq => ⟨setDivisorCode c d ++ [.releaseCh c], ?_⟩⟩
  · have hrun := ready_runs h
    have hp := follows_hasCode (.config c) s.ds
    obtain ⟨k, hk⟩ : ∃ k, s.quantum = k + 1 + 1 := ⟨s.quantum - 2, by omega⟩
    rw [request_ready h (by omega), requestCode_setDivisor, hk, run_acquireCh hrun hf rfl hp]
    exact run_setDivisor_inWindow (by simpa using hrun) (by simpa using hc) (by simpa using ready_busLock h) (Or.inr ⟨c, rfl⟩)
      (by simp [hlen]) (by simp) hp (by omega)
  · rw [exec_asked hask, request_waits h hq (requestCode_setDivisor s.params c d) hl]

/-! ## SET_LINE -/

/-- The flow bits under the parameters' default positions: AFE is bit 5, RTS bit 1 (R224; PRESUMED, log 11). -/
theorem flowForced_default (en : Bool) (f : Byte) :
    flowForced Config.mcr en f = if en then f ||| 0x20#8 ||| 0x02#8 else f &&& ~~~0x20#8 := rfl

/-- SET_LINE stores both masks under the channel lock (R163). -/
theorem run_masks {p : State → Bool} {g : Agent} {s : State} {c n : Nat} {rest : List Stmt} {acc : List Byte} {q : List Instr}
    {d0 : DState} {m i : Byte} (h : s.runs g = true) (hlen : c < s.ch.length) (hf : (s.chan c).chLock = .free) (hd : s.ds = d0)
    (hp : Follows p g d0) :
    State.runWhile p (n + 3) g
        (s.setAgent g (ctl (.acquireCh c :: .setReadStatusMask c m :: .setIgnoreMask c i :: rest) acc q)) =
      State.runWhile p n g ((s.setChan c { s.chan c with chLock := .held g, readStatusMask := m, ignoreMask := i }).setAgent g
        (ctl rest acc q)) := by
  have hg := State.runs_hasAgent h
  rw [run_acquireCh h hf hd hp,
    run_setChan (c := c) (x := { s.chan c with chLock := .held g, readStatusMask := m }) (by simpa using h) (by simpa using hd) hp
      (by simp [State.doStmt, hg, hlen]),
    run_setChan (c := c) (x := { s.chan c with chLock := .held g, readStatusMask := m, ignoreMask := i }) (by simpa using h)
      (by simpa using hd) hp (by simp [State.doStmt, hg, hlen])]
  simp

/-- `release ch[c].chLock` by the holder, with the record `x` in the channel (R91). -/
theorem run_releaseCh_setChan {p : State → Bool} {s : State} {g : Agent} {c n : Nat} {x : Chan} {rest : List Stmt}
    {acc : List Byte} {q : List Instr} {d0 : DState} (h : s.runs g = true) (hlen : c < s.ch.length) (hx : x.chLock = .held g)
    (hd : s.ds = d0) (hp : Follows p g d0) :
    State.runWhile p (n + 1) g ((s.setChan c x).setAgent g (ctl (.releaseCh c :: rest) acc q)) =
      State.runWhile p n g ((s.setChan c { x with chLock := .free }).setAgent g (ctl rest acc q)) := by
  rw [run_releaseCh (by simpa using h) (by simpa [hlen] using hx) (by simpa using hd) hp]
  simp [hlen]

/-- FLOW_BODY of a configuration agent with the record `x` in the channel and no window open (R224). -/
theorem run_flow_setChan {p : State → Bool} {s : State} {c e n : Nat} {en : Bool} {x : Chan} {rest : List Stmt} {acc : List Byte}
    {q : List Instr} {d0 : DState} (h : s.runs (.config e) = true) (hc : c < s.params.nCh) (hlen : c < s.ch.length)
    (hb : s.busLock = .free) (hw : s.dlabWindow = none) (hd : s.ds = d0) (hp : Follows p (.config e) d0) : ∃ k, n ≤ k ∧
    State.runWhile p (n + 6) (.config e) ((s.setChan c x).setAgent (.config e) (ctl (flowCode c en ++ rest) acc q)) =
      State.runWhile p k (.config e)
        ((((s.sent (.config e) .write c 4 [x.mctrlReq ||| flowForced s.params.mcr en x.forced]).show
          (if en then [.emit (.ctsChange c true)] else [])).setChan c
            { x with forced := flowForced s.params.mcr en x.forced }).setAgent (.config e) (ctl rest acc q)) := by
  obtain ⟨k, hk, hflow⟩ := run_flow (n := n) (en := en) (rest := rest) (acc := acc) (q := q) (s := s.setChan c x)
    (by simpa using h) (by simpa using hc) (by simpa using hlen) (by simpa using hb)
    (fun cmd => hazard_config _ e c cmd (by simpa using hw)) (by simpa using hd) hp
  exact ⟨k, hk, by rw [hflow]; simp [hlen]⟩

/-- What SET_LINE leaves, apart from its agent's control state (R163). -/
def State.lineSet (s : State) (c : Nat) (p : LineParams) (lcr : Byte) (d : Half) (achieved : Nat) : State :=
  let forced := flowForced s.params.mcr p.flow (s.chan c).forced
  (((((s.sent (.config c) .write c 3 [lcr]).divisorSet (.config c) c d).sent (.config c) .write c 4
    [(s.chan c).mctrlReq ||| forced]).show (if p.flow then [.emit (.ctsChange c true)] else [])).show
      [.result (.config c) (.baud achieved)]).setChan c
        { s.chan c with readStatusMask := p.readStatusMask, ignoreMask := p.ignoreMask, forced := forced }

/-- The part of SET_LINE under the channel lock, run to its end: the masks, LCR, the divisor sequence, FLOW_BODY, the lock given
back, and the rate returned (R163). -/
theorem run_setLineLocked {s : State} {c n : Nat} {p : LineParams} {lcr : Byte} {d : Half} {achieved : Nat} {acc : List Byte}
    {q : List Instr} (h : s.runs (.config c) = true) (hc : c < s.params.nCh) (hlen : c < s.ch.length)
    (hf : (s.chan c).chLock = .free) (hb : s.busLock = .free) (hw : s.dlabWindow = none) :
    State.runWhile (State.hasCode (.config c)) (n + 38) (.config c)
        (s.setAgent (.config c) (ctl (setLineLockedCode c p lcr d achieved) acc q)) =
      (s.lineSet c p lcr d achieved).setAgent (.config c)
        (ctl [] ((s.sent (.config c) .write c 3 [lcr]).drawBytes 1) q) := by
  have hg := State.runs_hasAgent h
  have hp := follows_hasCode (.config c) s.ds
  simp only [setLineLockedCode, List.append_assoc, List.cons_append, List.nil_append]
  rw [run_masks h hlen hf rfl hp]
  generalize hx : { s.chan c with
    chLock := .held (.config c), readStatusMask := p.readStatusMask, ignoreMask := p.ignoreMask } = x
  have hxl : x.chLock = .held (.config c) := by rw [← hx]
  rw [show n + 35 = n + 31 + 4 by rfl,
    run_write (by simpa using h) (by simpa using hc) (by decide) (by simpa using hb) (hazard_config _ c c _ (by simpa using hw))
      (by simp) hp, show n + 31 = n + 8 + 23 by rfl,
    run_setDivisor (by simpa using h) (by simpa using hc) (by simpa using hb) (Or.inr ⟨c, rfl⟩) (by simp) hp]
  simp only [State.setChan_sent, divisorSet_setChan, State.setChan_withWindow, State.setChan_drawBytes]
  obtain ⟨k, hk, hflow⟩ := run_flow_setChan (p := State.hasCode (.config c)) (n := n + 2) (c := c) (e := c) (x := x)
    (s := ((s.sent (.config c) .write c offLcr [lcr]).divisorSet (.config c) c d).withWindow none)
    (rest := [.releaseCh c, .ret (.baud achieved)]) (acc := (s.sent (.config c) .write c offLcr [lcr]).drawBytes 1) (q := q)
    (en := p.flow) (by simpa using h) (by simpa using hc) (by simpa using hlen) (by simpa using hb) (by simp) (by simp) hp
  obtain ⟨j, rfl⟩ := quantum_split hk
  refine hflow.trans ?_
  rw [show j + (n + 2) = j + n + 1 + 1 by rfl,
    run_releaseCh_setChan (by simpa using h) (by simpa using hlen) (by simpa using hxl) (by simp) hp,
    run_ret (by simpa using h) (by simp) hp, run_done (by simpa using hg)]
  simp [State.lineSet, hw, hf, ← hx, offLcr]

/-- SET_LINE with a line-control byte and a divisor runs its part under the free lock to its end (R163). -/
theorem exec_setLine {s : State} {c : Nat} {p : LineParams} {lcr : Byte} {d : Half} {achieved : Nat}
    (h : s.ready (.config c) = true) (hc : c < s.params.nCh) (hlen : c < s.ch.length) (hf : (s.chan c).chLock = .free)
    (hw : s.dlabWindow = none) (hl : lineLcr p = some lcr) (hd : computeDivisor s.params.clockHz p.baud = .ok (d, achieved))
    (hq : 39 ≤ s.quantum) :
    exec (.setLine c p) s = .next ((s.lineSet c p lcr d achieved).setAgent (.config c)
      { s.agent (.config c) with acc := (s.sent (.config c) .write c 3 [lcr]).drawBytes 1 }) := by
  have hrun := ready_runs h
  have ht : (s.lineSet c p lcr d achieved).runs (.config c) = true := by simpa [State.lineSet] using hrun
  refine exec_returns (m := 38) (if_pos hc) h hq ht fun n => ?_
  have hcode : requestCode s.params (.setLine c p) = [.setLineStart c p] := rfl
  rw [run_done (State.runs_hasAgent ht), hcode, run_goOn (code := setLineLockedCode c p lcr d achieved) (t := s)
    (acc' := (s.agent (.config c)).acc) hrun ((follows_hasCode _ s.ds).loaded rfl (State.runs_hasAgent hrun))
    (by simp [State.doStmt, State.setLineStart, hl, hd, State.runs_hasAgent hrun])]
  exact run_setLineLocked hrun hc hlen hf (ready_busLock h) hw

/-- Settles O27: the operands have a line-control byte (`lineLcr_eq`), and with it SET_LINE runs to its end (`exec_setLine`). -/
theorem setLineSequence : Obligations.SetLineSequence := by
  intro s c p par d achieved h hc hlen hf hw h5 h8 hs hp hd hm hq
  have hx := exec_setLine h hc hlen hf hw (lineLcr_eq h5 h8 hs hp) hd hq
  rw [State.lineSet, hm, flowForced_default] at hx
  exact hx

end Sys2Proof.Machine
end

section
/-! SUPPORT. The dispatcher: the pass in which no interrupt is pending, one channel after another (R172-R174, R178, R179); the rows
of the IIR decode as one dispatch on the byte read (R112, R174, R184); and signals (R171, R172). -/

namespace Sys2Proof.Machine

/-! ## The pass with no interrupt pending -/

/-- No read command is a write (R101, R102), so with no divisor window open a read meets no hazard (R285, R286). -/
theorem hazard_readCmd {s : State} (hw : s.dlabWindow = none) (g : Agent) (c r : Nat) : s.hazard g c (readCmd c r) = none := by
  have hr : cmdIsWrite (readCmd c r) = false := by
    rw [cmdIsWrite, Byte.has, readCmd, BitVec.getLsbD_and, show (0xFD#8).getLsbD 1 = false from rfl, Bool.false_and]
  simp [State.hazard, State.dlabBroken, State.shutBroken, hw, hr]

/-- An identification byte with the no-interrupt bit set is NOINT, under any parameters (R112, R113). -/
theorem decodeIir_of_noIntBit {p : IirParams} {v : Byte} (h : v.has p.noIntBit = true) : decodeIir p v = .noint := if_pos h

/-- The dispatcher has come to the control state `d`: `l` was shown, `k` answers were taken and `rest` are left. -/
def State.cameTo (s : State) (d : DState) (l : List Obs) (rest : List Draw) (k : Nat) : State :=
  { s with ds := d, out := s.out ++ l, oracle := rest, draws := s.draws + k }

theorem cameTo_cameTo (s : State) (d e : DState) (l m : List Obs) (r t : List Draw) (j k : Nat) :
    (s.cameTo d l r j).cameTo e m t k = s.cameTo e (l ++ m) t (j + k) := by
  simp [State.cameTo, Nat.add_assoc]

theorem cameTo_self {s : State} {d : DState} {r : List Draw} (hd : s.ds = d) (ho : s.oracle = r) : s.cameTo d [] r 0 = s := by
  subst hd ho
  simp [State.cameTo]

/-- The overrun log of a line status (R173). -/
def overrunShown (c : Nat) (l : Byte) : List Obs := if l.getLsbD 1 then [.log (.overrunSeen c)] else []

/-- The control state of a pass at channel `c`: its line-status poll, and after the last channel Idle (R178). -/
def State.passAt (s : State) (c : Nat) : DState := if c < s.params.nCh then .pollLsr c else .idle

/-- What the pass shows of one channel with no interrupt pending: its LSR read, an overrun, its IIR read (R173, R174). -/
def visitShown (y : ((Bool × Byte) × (Bool × Byte)) × Nat) : List Obs :=
  readShown y.2 5 y.1.1 ++ overrunShown y.2 y.1.1.2 ++ readShown y.2 2 y.1.2

section

variable {s : State} {c n : Nat} {acc : List Byte} {q : List Instr} {x : Bool × Byte} {rest : List Draw}

/-- The line-status poll, five statements: LSR is read, and an overrun logged (R173). -/
theorem run_pollLsr (h : s.runs .dispatcher = true) (hb : s.busLock = .free) (hw : s.dlabWindow = none)
    (hc : c < s.params.nCh) (hd : s.ds = .pollLsr c) (ho : s.oracle = answer x :: rest) :
    State.runWhile State.inPass (n + 5) .dispatcher (s.setAgent .dispatcher (ctl [] acc q)) =
      State.runWhile State.inPass n .dispatcher
        ((s.cameTo (.readIir c) (readShown c 5 x ++ overrunShown c x.2) rest 1).setAgent .dispatcher (ctl [] [x.2] q)) := by
  have hp := followsDs_inPass (d := .pollLsr c) (by simp)
  rw [run_ds_read h hd rfl hc (by decide) hb (hazard_readCmd hw _ _ _) hp, received_of_oracle ho, drawBytes_of_oracle ho]
  refine run_goOn h (hp _ hd) ?_
  rw [State.cameTo, ← List.append_assoc]
  rfl

/-- The identification read where no interrupt is pending, five statements: IIR is read, and the channel's loop ends (R174). -/
theorem run_readIir_noint (h : s.runs .dispatcher = true) (hb : s.busLock = .free) (hw : s.dlabWindow = none)
    (hc : c < s.params.nCh) (hd : s.ds = .readIir c) (ho : s.oracle = answer x :: rest)
    (hi : x.2.has s.params.iir.noIntBit = true) :
    State.runWhile State.inPass (n + 5) .dispatcher (s.setAgent .dispatcher (ctl [] acc q)) =
      State.runWhile State.inPass n .dispatcher
        ((s.cameTo (.nextCh c) (readShown c 2 x) rest 1).setAgent .dispatcher (ctl [] [x.2] q)) := by
  have hp := followsDs_inPass (d := .readIir c) (by simp)
  rw [run_ds_read h hd rfl hc (by decide) hb (hazard_readCmd hw _ _ _) hp, received_of_oracle ho, drawBytes_of_oracle ho]
  refine run_goOn h (hp _ hd) ?_
  exact congrArg (fun a => State.dispatchOn _ _ c _ a _) (decodeIir_of_noIntBit hi)

/-- The move to the next channel, one statement (R178). -/
theorem run_nextCh (h : s.runs .dispatcher = true) (hd : s.ds = .nextCh c) :
    State.runWhile State.inPass (n + 1) .dispatcher (s.setAgent .dispatcher (ctl [] acc q)) =
      State.runWhile State.inPass n .dispatcher
        ((s.cameTo (s.passAt (c + 1)) [] s.oracle 0).setAgent .dispatcher (ctl [] acc q)) := by
  refine run_ds_goOn h hd rfl (followsDs_inPass (by simp)) ?_
  rw [State.cameTo, List.append_nil]
  rfl

/-- A channel with no interrupt pending, eleven statements: LSR and IIR are read once, and the pass goes on to the next channel. -/
theorem run_visit {x : (Bool × Byte) × (Bool × Byte)} (h : s.runs .dispatcher = true) (hb : s.busLock = .free)
    (hw : s.dlabWindow = none) (hc : c < s.params.nCh) (hd : s.ds = .pollLsr c)
    (ho : s.oracle = answer x.1 :: answer x.2 :: rest) (hi : x.2.2.has s.params.iir.noIntBit = true) :
    State.runWhile State.inPass (n + 11) .dispatcher (s.setAgent .dispatcher (ctl [] acc q)) =
      State.runWhile State.inPass n .dispatcher
        ((s.cameTo (s.passAt (c + 1)) (visitShown (x, c)) rest 2).setAgent .dispatcher (ctl [] [x.2.2] q)) := by
  rw [run_pollLsr h hb hw hc hd ho, run_readIir_noint (s := s.cameTo (.readIir c) _ _ 1) h hb hw hc rfl rfl hi,
    cameTo_cameTo, run_nextCh (s := s.cameTo (.nextCh c) _ rest 2) h rfl, cameTo_cameTo, List.append_nil]
  rfl

end

/-- The channels from `c` on, none with an interrupt pending: by induction on their answers, each is visited once, in ascending
order, and the pass ends Idle (R178, R179). -/
theorem run_emptyPass {n : Nat} {q : List Instr} {rest : List Draw} (xs : List ((Bool × Byte) × (Bool × Byte))) :
    ∀ {s : State} {c : Nat} (acc : List Byte), s.runs .dispatcher = true → s.busLock = .free → s.dlabWindow = none →
      s.ds = s.passAt c → c + xs.length = s.params.nCh → (∀ x ∈ xs, x.2.2.has s.params.iir.noIntBit = true) →
      s.oracle = xs.flatMap (fun x => [answer x.1, answer x.2]) ++ rest →
      ∃ acc', State.runWhile State.inPass (n + 11 * xs.length) .dispatcher (s.setAgent .dispatcher (ctl [] acc q)) =
        (s.cameTo .idle ((xs.zipIdx c).flatMap visitShown) rest (2 * xs.length)).setAgent .dispatcher (ctl [] acc' q) := by
  induction xs with
  | nil =>
    intro s c acc _ _ _ hd hn _ ho
    have hidle : s.ds = .idle := hd.trans (if_neg hn.ge.not_gt)
    exact ⟨acc, (runWhile_stop (by simp [State.inPass, hidle, State.setAgent])).trans
      (congrArg (State.setAgent · _ _) (cameTo_self hidle ho).symm)⟩
  | cons x xs ih =>
    intro s c acc h hb hw hd hn hx ho
    rw [List.length_cons] at hn ⊢
    have hc : c < s.params.nCh := by omega
    obtain ⟨acc', hrun⟩ := ih (s := s.cameTo (s.passAt (c + 1)) (visitShown (x, c)) _ 2) (c := c + 1) [x.2.2] h hb hw rfl
      ((Nat.add_right_comm c 1 _).trans hn) (fun y hy => hx y (List.mem_cons_of_mem _ hy)) rfl
    refine ⟨acc', ?_⟩
    rw [show n + 11 * (xs.length + 1) = n + 11 * xs.length + 11 by omega,
      run_visit h hb hw hc (hd.trans (if_pos hc)) ho (hx x List.mem_cons_self)]
    refine hrun.trans ?_
    rw [cameTo_cameTo, List.zipIdx_cons, List.flatMap_cons, Nat.mul_add, Nat.add_comm 2]

/-- Settles O30: the pass starts at channel 0 with the signal served, and `run_emptyPass` takes it through the channels. -/
theorem emptyPassVisitsEveryChannel : Obligations.EmptyPassVisitsEveryChannel := by
  intro s xs rest hr hd hs hw h1 hlen hx ho hq
  have hrest := ready_resting hr
  obtain ⟨-, hcode, hst, -, hat, hb⟩ := resting_iff.mp hrest
  have hstart : s.passReady = true := passReady_of_idle (by simp [State.isIdle, hcode, hst]) hd hs hat
  obtain ⟨k, hk⟩ := quantum_split hq
  obtain ⟨acc, hrun⟩ := run_emptyPass (s := s.passStart) (n := k) (q := []) (c := 0) xs s.disp.acc (resting_runs (s := s) hrest)
    hb hw (if_pos h1).symm ((Nat.zero_add _).trans hlen) hx ho
  have hback : s.passStart.setAgent .dispatcher (ctl [] s.disp.acc []) = s.passStart := resting_back hrest rfl
  rw [hback, hlen, ← hk] at hrun
  refine ⟨acc, ?_⟩
  rw [exec, execDispatchPass, if_pos hstart, State.runDispatcher, State.passStart_quantum, hrun, resting_acc hrest, ← hd]
  rfl

/-! ## The rows of the IIR decode -/

/-- NOINT is told by bit 0 alone (R112). -/
theorem decodeIir_noint (rest : BitVec 7) : decodeIir Config.iir (rest ++ 1#1) = .noint := by
  refine decodeIir_of_noIntBit (p := Config.iir) ?_
  rw [Byte.has, BitVec.getLsbD_append, if_pos (by decide)]
  rfl

/-- Under the default parameters the action is told by the low half of the byte (R112). -/
theorem decodeIir_append (hi lo : BitVec 4) : decodeIir Config.iir (hi ++ lo) = decodeIir Config.iir (0#4 ++ lo) := by
  have hlow : ∀ hi : BitVec 4, (hi ++ lo).toNat % 16 = lo.toNat := fun hi => by
    rw [BitVec.toNat_append, ← Nat.shiftLeft_add_eq_or_of_lt lo.isLt, Nat.shiftLeft_eq]
    omega
  have hbit : ∀ hi : BitVec 4, (hi ++ lo).toNat % 2 = lo.toNat % 2 := fun hi => by
    rw [← hlow hi]
    omega
  rw [iirDecodeTable, iirDecodeTable]
  simp only [hlow, hbit]

/-- Each row of the table dispatches on its own byte, with the action that the byte decodes to (R112, R174). -/
theorem exec_iirRow {i : Instr} {w : Byte} (h : encode i = some (.iir w)) (s : State) :
    exec i s = .next (s.takeIir w (decodeIir Config.iir w)) := by
  cases i with
  | iirNoint rest =>
    cases h
    rw [decodeIir_noint]
    rfl
  | iirMsi hi | iirThre hi | iirRda hi | iirRls hi | iirRto hi | iirUnknown08 hi | iirUnknown0A hi | iirUnknown0E hi =>
    cases h
    rw [decodeIir_append]
    rfl
  | _ => cases h

/-- A byte with bit 0 set is its upper seven bits and that bit. -/
theorem extract_append_one {v : Byte} (h : v.has 0 = true) : v.extractLsb' 1 7 ++ 1#1 = v := by
  have hz : v.toNat % 2 = 1 := of_decide_eq_true ((cmdZ_eq v).symm.trans h)
  have hv := v.isLt
  apply BitVec.eq_of_toNat_eq
  rw [BitVec.toNat_append, ← Nat.shiftLeft_add_eq_or_of_lt (1#1).isLt, BitVec.extractLsb'_toNat, Nat.shiftLeft_eq,
    Nat.shiftRight_eq_div_pow, show (1#1).toNat = 1 from rfl]
  omega

/-- A byte with bit 0 clear is its high half and twice its code (R112). -/
theorem extract_append_code {v : Byte} (h : v.has 0 = false) {k : Nat} (hk : (v.extractLsb' 1 3).toNat = k) :
    v.extractLsb' 4 4 ++ BitVec.ofNat 4 (2 * k) = v := by
  have hz : ¬v.toNat % 2 = 1 := of_decide_eq_false ((cmdZ_eq v).symm.trans h)
  have hv := v.isLt
  rw [BitVec.extractLsb'_toNat, Nat.shiftRight_eq_div_pow] at hk
  apply BitVec.eq_of_toNat_eq
  rw [BitVec.toNat_append, ← Nat.shiftLeft_add_eq_or_of_lt (BitVec.isLt _), BitVec.extractLsb'_toNat, Nat.shiftLeft_eq,
    Nat.shiftRight_eq_div_pow, BitVec.toNat_ofNat]
  omega

/-- Every identification byte is the word of the row it belongs to (R112). -/
theorem encode_decodeIirRow (v : Byte) : encode (decodeIirRow v) = some (.iir v) := by
  by_cases h : v.has 0 = true
  · rw [decodeIirRow, if_pos h]
    exact congrArg (fun w => some (Words.iir w)) (extract_append_one h)
  · have hcode : ∀ k, (v.extractLsb' 1 3).toNat = k → v.extractLsb' 4 4 ++ BitVec.ofNat 4 (2 * k) = v :=
      fun _ => extract_append_code (Bool.eq_false_iff.mpr h)
    have hlt := (v.extractLsb' 1 3).isLt
    rw [decodeIirRow, if_neg h]
    generalize (v.extractLsb' 1 3).toNat = k at hcode hlt
    interval_cases k <;> exact congrArg (fun w => some (Words.iir w)) (hcode _ rfl)

section

variable {s : State} {c : Nat} {v : Byte} {more : List Stmt}

/-- The byte that the dispatcher read last. -/
theorem readByte_of_acc (hacc : s.disp.acc = [v]) : s.readByte .dispatcher = v := by
  rw [State.readByte, State.agent, hacc, List.headD_cons]

/-- Once ATTACH has ended, a dispatcher that no fault has stopped may step (R246, R273). -/
theorem canStep_dispatcher (hat : s.attached = true) (hst : s.disp.stopped = false) : s.canStep .dispatcher = true := by
  rw [State.canStep, State.agent, hst, hat, Bool.true_or, Bool.not_false, Bool.true_and]

/-- A dispatcher that is about to dispatch on the byte `v` it has read takes the action of `v` (R174). -/
theorem takeIir_read (hat : s.attached = true) (hst : s.disp.stopped = false) (hcode : s.disp.code = .iirDispatch c :: more)
    (hacc : s.disp.acc = [v]) : s.takeIir v (decodeIir s.params.iir v) =
      s.dispatchOn .dispatcher c v (decodeIir s.params.iir v) more := by
  have hch : s.iirChannel = some (c, more) := by rw [State.iirChannel, hcode]
  simp [State.takeIir, hch, readByte_of_acc hacc, canStep_dispatcher hat hst]

/-- A row does not act on a byte that is not the one read (log 4). -/
theorem takeIir_other {w : Byte} {a : IirAction} (hread : s.readByte .dispatcher ≠ w) : s.takeIir w a = s := by
  rw [State.takeIir]
  split
  · exact if_neg (by simp [hread])
  · rfl

end

/-- Settles O31: every row is a dispatch on its byte (`exec_iirRow`), whose low half says which action it takes. -/
theorem identificationDispatches : Obligations.IdentificationDispatches := by
  intro s c more v hat hst hcode hacc hiir
  have hrow : ∀ i, encode i = some (.iir v) →
      exec i s = .next (s.dispatchOn .dispatcher c v (decodeIir Config.iir v) more) := fun i hi => by
    rw [exec_iirRow hi, ← hiir, takeIir_read hat hst hcode hacc]
  have hlow : ∀ lo (row : BitVec 4 → Instr), (∀ hi, encode (row hi) = some (.iir (hi ++ lo))) → ∀ hi, v = hi ++ lo →
      exec (row hi) s = .next (s.dispatchOn .dispatcher c v (decodeIir Config.iir (0#4 ++ lo)) more) :=
    fun lo row he hi hv => by rw [hrow _ (hv ▸ he hi), hv, decodeIir_append]
  refine ⟨fun x hv => ?_, hlow _ .iirMsi fun _ => rfl, hlow _ .iirThre fun _ => rfl, hlow _ .iirRda fun _ => rfl,
    hlow _ .iirRls fun _ => rfl, hlow _ .iirRto fun _ => rfl, hlow _ .iirUnknown08 fun _ => rfl,
    hlow _ .iirUnknown0A fun _ => rfl, hlow _ .iirUnknown0E fun _ => rfl, fun i w hi hw => ?_⟩
  · rw [hrow (.iirNoint x) (hv ▸ rfl), hv, decodeIir_noint]
    rfl
  · rw [exec_iirRow hi, takeIir_other (readByte_of_acc hacc ▸ hw.symm)]

/-- An agent with statements to run and a turn of one runs the first of them (R10, R40). -/
theorem runTurn_one {s : State} {g : Agent} {m : Stmt} {rest : List Stmt} (hg : s.turn = g) (hq : s.quantum = 1)
    (hs : s.canStep g = true) (hcode : (s.agent g).code = m :: rest) : s.runTurn = s.doStmt g m rest := by
  have hbegin : s.begin g = s := by simp [State.begin, State.accepts, State.isIdle, hcode]
  have hnext : s.nextCode g = m :: rest := by rw [State.nextCode, hcode]
  have hbusy : State.agentBusy g s = true := by simp [State.agentBusy, hcode]
  rw [State.runTurn, hq, hg, if_pos Nat.one_pos, hbegin, runWhile_next hbusy, agentStep_stmt hs hnext]
  rfl

/-- In a turn of one, a dispatcher that is about to dispatch on the byte `v` it has read takes the action of `v` (R174). -/
theorem runTurn_iirDispatch {s : State} {c : Nat} {v : Byte} {more : List Stmt} (hg : s.turn = .dispatcher) (hq : s.quantum = 1)
    (hat : s.attached = true) (hst : s.disp.stopped = false) (hcode : s.disp.code = .iirDispatch c :: more)
    (hacc : s.disp.acc = [v]) : s.runTurn = s.takeIir v (decodeIir s.params.iir v) := by
  rw [runTurn_one hg hq (canStep_dispatcher hat hst) hcode, takeIir_read hat hst hcode hacc, State.doStmt, readByte_of_acc hacc]

/-- Settles O9: the dispatcher's turn runs the dispatch on `v`, which is what the row of `v` does (`exec_iirRow`). -/
theorem stepRunsIdentification : Obligations.StepRunsIdentification := by
  intro s c v more rest ha hiir hat hst hcode hacc hin
  rw [step, if_pos ha, nextInput_of_inbox hin, takeInput_of_inbox hin, exec_iirRow (encode_decodeIirRow v), ← hiir]
  exact congrArg _ (runTurn_iirDispatch (s := s.given rest (s.inputs + 1) .dispatcher 1) rfl rfl hat hst hcode hacc)

/-! ## Signals -/

/-- Settles O29: SIGNAL sets the flag, set or not, and a pass may start only in Idle with a signal pending. -/
theorem signalsCoalesce : Obligations.SignalsCoalesce := by
  refine fun s => ⟨rfl, rfl, fun h => ?_⟩
  have hstart : ¬s.passReady = true := by
    rcases h with hds | hsig
    · simp [State.passReady, hds]
    · simp [State.passReady, hsig]
  rw [exec, execDispatchPass, if_neg hstart]

end Sys2Proof.Machine
end

section
/-! SUPPORT. The host tasks and the control requests run to their end (R216 to R227), and the pending requests of an agent (R228). -/

namespace Sys2Proof.Machine

/-! ## Control requests -/

section

variable {s : State} {g : Agent} {i : Instr}

/-- A request of one statement that only shows something (R114). -/
theorem exec_shows {l : List Obs} {m : Stmt} (hask : s.askedOf i = some g) (h : s.ready g = true) (hq : 1 ≤ s.quantum)
    (hcode : requestCode s.params i = [m])
    (hm : (s.setAgent g (ctl [m] (s.agent g).acc [])).doStmt g m [] = (s.show l).setAgent g (ctl [] (s.agent g).acc [])) :
    exec i s = .next (s.show l) := by
  rw [exec_asked hask, request_show h hq hcode hm]

end

/-- Settles O43: GET_STATUS is one statement, which looks at the cached byte and shows it decoded or raises MsrUnknown. -/
theorem getStatusIsCached : Obligations.GetStatusIsCached := by
  intro s c h hc hq
  have hask : s.askedOf (.getStatus c) = some (.config c) := if_pos hc
  have hg := State.runs_hasAgent (ready_runs h)
  have cached : ∀ m, (s.chan c).msrCache = some m →
      exec (.getStatus c) s = .next (s.show [.result (.config c) (.lines (Config.msrDecode m))]) := fun m hm =>
    exec_shows hask h hq rfl (by simp [State.doStmt, State.getStatus, hm, hg])
  refine ⟨cached, fun hm => cached _ hm, fun hm => ⟨[.getStatus c], ?_⟩⟩
  rw [exec_asked hask, request_raises (f := .msrUnknown c) h hq rfl fun a => by simp [State.doStmt, State.getStatus, hm]]

/-- Settles O45: RS485_GET is one statement, which shows the configuration. -/
theorem rs485GetReturnsConfig : Obligations.Rs485GetReturnsConfig := by
  intro s c h hc hq
  exact exec_shows (if_pos hc) h hq rfl (by simp [State.doStmt, State.runs_hasAgent (ready_runs h)])

/-- RS485_SET of a valid configuration, under the free lock, run to its end (R227). -/
theorem exec_rs485Set_valid {s : State} {c : Nat} {cfg : Rs485} (h : s.ready (.config c) = true) (hc : c < s.params.nCh)
    (hlen : c < s.ch.length) (hf : (s.chan c).chLock = .free) (hq : 4 ≤ s.quantum) (hv : Config.rs485Valid cfg = true) :
    exec (.rs485Set c cfg) s = .next (s.setChan c { s.chan c with rs485 := cfg }) := by
  have hrun := ready_runs h
  have hg := State.runs_hasAgent hrun
  have hp := follows_hasCode (.config c) s.ds
  have hcode : requestCode s.params (.rs485Set c cfg) = [.rs485Start c cfg] := rfl
  refine exec_leaves (m := 3) (if_pos hc) h hq (by simpa using hrun) (by simp) fun n => ?_
  rw [hcode, run_goOn (t := s) (code := rs485LockedCode c cfg) (acc' := (s.agent (.config c)).acc) hrun (hp.loaded rfl hg)
      (by simp [State.doStmt, State.rs485Start, hv, hg]), rs485LockedCode, run_acquireCh hrun hf rfl hp,
    run_setChan (c := c) (x := { s.chan c with chLock := .held (.config c), rs485 := cfg }) (by simpa using hrun) (by simp) hp
      (by simp [State.doStmt, hg, hlen]), State.setChan_setChan, run_releaseCh_setChan hrun hlen rfl rfl hp]
  simp [hf]

/-- Settles O46: a valid configuration is stored under the lock (`exec_rs485Set_valid`), another rejected before it. -/
theorem rs485SetStoresOrRejects : Obligations.Rs485SetStoresOrRejects := by
  intro s c cfg h hc hlen hf hq
  cases hv : Config.rs485Valid cfg with
  | true => exact exec_rs485Set_valid h hc hlen hf hq hv
  | false =>
    have hask : s.askedOf (.rs485Set c cfg) = some (.config c) := if_pos hc
    rw [exec_asked hask, rs485Set_rejected h (by omega) hv, if_neg Bool.false_ne_true]

/-- Settles O44: FLOW_BODY (`run_flow_setChan`) between the acquisition of the channel lock and its release. -/
theorem configFlowWritesMcr : Obligations.ConfigFlowWritesMcr := by
  intro s c en h hc hlen hf hw hm hq
  rw [← flowForced_default en (s.chan c).forced, ← hm]
  have hrun := ready_runs h
  have hg := State.runs_hasAgent hrun
  have hp := follows_hasCode (.config c) s.ds
  have hcode : requestCode s.params (.configFlow c en) = .acquireCh c :: (flowCode c en ++ [.releaseCh c]) := rfl
  refine exec_leaves (m := 7) (if_pos hc) h hq (by simpa using hrun) (by simp) fun n => ?_
  obtain ⟨k, hk, hflow⟩ := run_flow_setChan (n := n + 1) (en := en) (x := { s.chan c with chLock := .held (.config c) })
    (rest := [.releaseCh c]) (acc := (s.agent (.config c)).acc) (q := []) hrun hc hlen (ready_busLock h) hw rfl hp
  obtain ⟨j, rfl⟩ := quantum_split hk
  rw [hcode, run_acquireCh hrun hf rfl hp]
  refine hflow.trans ?_
  rw [← Nat.add_assoc, run_releaseCh_setChan (by simpa using hrun) (by simpa using hlen) rfl (by simp) hp,
    run_done (by simpa using hg), run_done (by simpa using hg)]
  simp [hf]

/-! ## Host tasks -/

/-- Settles O41: the five statements of UPDATE (`run_update`), with no lock but the bus's. -/
theorem stopRxClearsEnables : Obligations.StopRxClearsEnables := by
  intro s c h hc hw hl hq
  have hrun := ready_runs h
  refine exec_returns (m := 4) (if_pos hc) h hq (by simpa using hrun) fun n => ?_
  exact run_update (rest := []) hrun hc (by decide) (ready_busLock h) (hazard_none _ _ _ _ hw hl) (hazard_none _ _ _ _ hw hl) rfl
    (follows_hasCode _ _)

/-- The bits a request may ask for under the parameters' default positions (R220; PRESUMED, log 11). -/
theorem mctrlMask_default : mctrlMask Config.mcr = 0x1F#8 := by decide

/-- SET_MCTRL run to its end: the request bits kept, and MCR written with them and the forced bits (R220, R221). -/
theorem exec_setMctrl {s : State} {c : Nat} {bits : Byte} (h : s.ready (.setMctrl c) = true) (hc : c < s.params.nCh)
    (hlen : c < s.ch.length) (hw : s.dlabWindow = none) (hl : (s.chan c).life ≠ .shut) (hq : 5 ≤ s.quantum) :
    exec (.setMctrl c bits) s = .next
      ((s.sent (.setMctrl c) .write c 4 [bits &&& mctrlMask s.params.mcr ||| (s.chan c).forced]).setChan c
        { s.chan c with mctrlReq := bits &&& mctrlMask s.params.mcr }) := by
  have hrun := ready_runs h
  have hg := State.runs_hasAgent hrun
  have hp := follows_hasCode (.setMctrl c) s.ds
  have hcode : requestCode s.params (.setMctrl c bits) = .setMctrlReq c bits :: (mcrCode c ++ []) := rfl
  refine exec_leaves (m := 4) (if_pos hc) h hq (by simpa using hrun) (by simp) fun n => ?_
  rw [hcode, run_setChan (c := c) (x := { s.chan c with mctrlReq := bits &&& mctrlMask s.params.mcr }) hrun rfl hp
      (by simp [State.doStmt, hg]),
    run_mcr (by simpa using hrun) (by simpa using hc) (by simpa using ready_busLock h)
      (fun cmd => hazard_none _ _ _ _ (by simpa using hw) (by simpa [hlen] using hl)) (by simp) hp]
  simp [hlen]

/-- Settles O42: SET_MCTRL run to its end (`exec_setMctrl`), and the one statement that writes MCR. -/
theorem setMctrlWritesForcedBits : Obligations.SetMctrlWritesForcedBits := by
  refine ⟨fun s c bits h hc hlen hw hl hm hq => ?_, fun s g c rest hs hb hn hz => ?_⟩
  · rw [exec_setMctrl h hc hlen hw hl hq, hm, mctrlMask_default]
  · rw [agentStep_stmt hs hn]
    simp [State.doStmt, State.txnWrite, hb, hz, offMcr]

/-- What the start of a transmit session shows: the pre-send delay, once in a session (R216, R217). -/
def sessionShown (g : Agent) (x : Chan) : List Obs :=
  if x.txActive = false ∧ x.rs485.enabled = true ∧ 0 < x.rs485.preDelay then [.sleep g x.rs485.preDelay] else []

/-- A channel record whose session is active is itself with the session marked. -/
theorem chan_active {x : Chan} (h : x.txActive = true) : { x with txActive := true } = x := by
  cases x
  cases h
  rfl

/-- The start of a transmit session, in at most three statements (R216, R217). -/
theorem run_beginSession {p : State → Bool} {s : State} {g : Agent} {c n : Nat} {rest : List Stmt} {acc : List Byte}
    {q : List Instr} {d0 : DState} (h : s.runs g = true) (hd : s.ds = d0) (hp : Follows p g d0) : ∃ k, n ≤ k ∧
    State.runWhile p (n + 3) g (s.setAgent g (ctl (.beginSession c :: rest) acc q)) =
      State.runWhile p k g (((s.show (sessionShown g (s.chan c))).setChan c { s.chan c with txActive := true }).setAgent g
        (ctl rest acc q)) := by
  have hg := State.runs_hasAgent h
  have begins : ∀ code, (s.setAgent g (ctl (.beginSession c :: rest) acc q)).beginSession g c rest =
      s.setAgent g (ctl code acc q) → State.runWhile p (n + 3) g (s.setAgent g (ctl (.beginSession c :: rest) acc q)) =
        State.runWhile p (n + 2) g (s.setAgent g (ctl code acc q)) := fun code hm => run_goOn h (hp.loaded hd hg) hm
  have marks : ∀ (l : List Obs) j, State.runWhile p (j + 1) g ((s.show l).setAgent g (ctl (.setTxActive c true :: rest) acc q)) =
      State.runWhile p j g (((s.show l).setChan c { s.chan c with txActive := true }).setAgent g (ctl rest acc q)) :=
    fun l j => run_setChan (by simpa using h) (by simpa using hd) hp (by simp [State.doStmt, hg])
  cases ha : (s.chan c).txActive with
  | true =>
    refine ⟨n + 2, by omega, ?_⟩
    rw [begins rest (by simp [State.beginSession, ha, hg]), chan_active ha]
    simp [sessionShown, ha]
  | false =>
    by_cases hs : (s.chan c).rs485.enabled = true ∧ 0 < (s.chan c).rs485.preDelay
    · refine ⟨n, le_refl _, ?_⟩
      rw [begins (.sleep (s.chan c).rs485.preDelay :: .setTxActive c true :: rest) (by simp [State.beginSession, ha, hs, hg]),
        run_show (l := [.sleep g (s.chan c).rs485.preDelay]) h hd hp (by simp [State.doStmt, hg]), marks, sessionShown,
        if_pos ⟨ha, hs⟩]
    · refine ⟨n + 1, by omega, ?_⟩
      rw [begins (.setTxActive c true :: rest) (by simp_all [State.beginSession]), sessionShown,
        if_neg fun hn => hs hn.2]
      simpa using marks [] (n + 1)

/-- UPDATE does not look at the channels' records. -/
@[simp] theorem updated_setChan (s : State) (g : Agent) (c d r : Nat) (m v : Byte) (x : Chan) :
    (s.setChan d x).updated g c r m v = (s.updated g c r m v).setChan d x := by simp [State.updated]

/-- The start of a session does not look at the channel lock. -/
@[simp] theorem sessionShown_setLock (g : Agent) (x : Chan) (l : Lock) :
    sessionShown g { x with chLock := l } = sessionShown g x := rfl

/-- Settles O40: the start of the session (`run_beginSession`) and UPDATE (`run_update`) under the channel lock. -/
theorem beginTxEnablesThre : Obligations.BeginTxEnablesThre := by
  intro s c h hc hlen hf hw hl hq
  have hrun := ready_runs h
  have hg := State.runs_hasAgent hrun
  have hp := follows_hasCode (.beginTx c) s.ds
  have hcode : requestCode s.params (.beginTx c) =
    .acquireCh c :: .beginSession c :: (updateCode c offIer ierThre ierThre ++ [.releaseCh c]) := rfl
  have hs1 : (if (s.chan c).txActive = false ∧ (s.chan c).rs485.enabled = true ∧ 0 < (s.chan c).rs485.preDelay
      then s.show [.sleep (.beginTx c) (s.chan c).rs485.preDelay] else s) = s.show (sessionShown (.beginTx c) (s.chan c)) := by
    rw [sessionShown]
    split
    · rfl
    · exact s.show_nil.symm
  simp only [hs1]
  refine exec_returns (m := 9) (if_pos hc) h hq (by simpa using hrun) fun n => ?_
  obtain ⟨k, hk, hbegin⟩ := run_beginSession (p := State.hasCode (.beginTx c)) (n := n + 6) (c := c) (g := .beginTx c)
    (s := s.setChan c { s.chan c with chLock := .held (.beginTx c) }) (rest := updateCode c offIer ierThre ierThre ++ [.releaseCh c])
    (acc := (s.agent (.beginTx c)).acc) (q := []) (by simpa using hrun) (by simp) hp
  obtain ⟨j, rfl⟩ := quantum_split hk
  rw [hcode, run_acquireCh hrun hf rfl hp]
  refine hbegin.trans ?_
  rw [State.setChan_chan_self _ _ _ hlen, State.setChan_show, State.setChan_setChan, sessionShown_setLock,
    show j + (n + 6) = j + n + 1 + 5 by rfl,
    run_update (by simpa using hrun) (by simpa using hc) (by decide) (by simpa using ready_busLock h)
      (hazard_none _ _ _ _ (by simpa using hw) (by simpa [hlen] using hl))
      (hazard_none _ _ _ _ (by simpa using hw) (by simpa [hlen] using hl)) (by simp) hp]
  rw [updated_setChan, run_releaseCh_setChan (by simpa using hrun) (by simpa using hlen) rfl (by simp) hp,
    run_done (by simpa using hg), run_done (by simpa using hg)]
  simp [hf, offIer, ierThre]

/-! ## Pending requests -/

/-- An agent that is in an operation, or the dispatcher in a pass, may not start a request (R228, log 29). -/
theorem accepts_of_busy {s : State} {g : Agent} (h : s.isIdle g = false ∨ (g = .dispatcher ∧ s.ds ≠ .idle)) :
    s.accepts g = false := by
  obtain hi | ⟨rfl, hd⟩ := h
  · simp [State.accepts, hi]
  · simp [State.accepts, hd]

/-- An idle agent with the turn and a request pending starts the first, once ATTACH has ended (R228). -/
theorem begin_pending {s : State} {g : Agent} {i : Instr} {more : List Instr} (hat : s.attached = true)
    (hi : s.isIdle g = true) (hd : g = .dispatcher → s.ds = .idle) (hp : (s.agent g).pending = i :: more) :
    s.begin g = s.setAgent g { s.agent g with code := requestCode s.params i, pending := more } := by
  have ha : s.accepts g = true := by
    by_cases hg : g = .dispatcher
    · simp [State.accepts, hi, hd hg]
    · exact accepts_of_isIdle hi hg
  simp [State.begin, ha, State.startNext, hp, hat, nextRequest]

/-- An idle task agent drops one pending request that is not the last (R228). -/
theorem dropPending_idle {s : State} {g : Agent} {k : Nat} (hat : s.attached = true) (hi : s.isIdle g = true)
    (hdef : g.isDeferred = true) (hk : k + 1 < (s.agent g).pending.length) :
    s.dropPending g k = s.setAgent g { s.agent g with pending := (s.agent g).pending.eraseIdx k } := by
  have hc : s.canStep g = true := by
    simp only [State.isIdle, Bool.and_eq_true] at hi
    simp [State.canStep, hi.2, hat]
  simp [State.dropPending, hi, hc, hdef, hk]

/-- Settles O47: a request that may not start joins the list (`request_busy`, `request_unstarted`), a drop removes one
(`dropPending_idle`), and a turn starts the first (`begin_pending`). -/
theorem pendingRequests : Obligations.PendingRequests := by
  refine ⟨fun s g i hask hbusy => ?_, fun s g k q rest ha hin hat hi hdef hk => ?_,
    fun s g i more q rest ha hin hat _ hi hd hp hq => ?_⟩
  · have hjoin : s.request g i = s.enqueue g i := by
      obtain hi | hq | hd := hbusy
      · exact request_busy (accepts_of_busy (.inl hi))
      · exact request_unstarted hq
      · exact request_busy (accepts_of_busy (.inr hd))
    rw [exec_asked hask, hjoin, State.enqueue]
  · have hdrop := dropPending_idle (s := s.given rest (s.inputs + 1) g q) (k := k) hat (by simpa [State.isIdle] using hi) hdef
      (by simpa using hk)
    rw [given_agent] at hdrop
    rw [step, if_pos ha, nextInput_of_inbox hin, takeInput_of_inbox hin]
    exact congrArg Host.Outcome.next hdrop
  · have hturn := step_turnOf ha g s.turn q s.inputs s.quantum rest
    rw [if_pos hq, begin_pending hat hi hd hp, ← hin, ← given_runBusy, ← given_setAgent] at hturn
    exact hturn

end Sys2Proof.Machine
end

section
/-! SUPPORT. The dispatcher's transmit and modem-status services, and TX_SETTLE by either of its callers (R200 to R211, R218). -/

namespace Sys2Proof.Machine

/-! ## TX_SETTLE -/

/-- A request that runs TX_SETTLE under the channel lock, by the stop-transmit task, run to its end (R211, R218). -/
theorem exec_stopTxCode {s : State} {c : Nat} {i : Instr} (hask : s.askedOf i = some (.stopTx c))
    (hcode : requestCode s.params i = stopTxCode c) (h : s.ready (.stopTx c) = true) (hc : c < s.params.nCh)
    (hlen : c < s.ch.length) (hf : (s.chan c).chLock = .free) (hw : s.dlabWindow = none) (hl : (s.chan c).life ≠ .shut)
    (hq : 15 ≤ s.quantum) :
    exec i s = .next ((s.settled (.stopTx c) c).1.setAgent (.stopTx c)
      { s.agent (.stopTx c) with acc := (s.settled (.stopTx c) c).2 }) := by
  have hrun := ready_runs h
  have hg := State.runs_hasAgent hrun
  have hp := follows_hasCode (.stopTx c) s.ds
  obtain ⟨hlen', hds, -, -, -, hlock⟩ := settled_frame s (.stopTx c) c
  refine exec_returns (m := 14) hask h hq (by simpa using hrun) fun n => ?_
  obtain ⟨k, hk, hsettle⟩ := run_settle (p := State.hasCode (.stopTx c)) (n := n + 1) (c := c) (g := .stopTx c)
    (s := s.setChan c { s.chan c with chLock := .held (.stopTx c) }) (rest := [.releaseCh c])
    (acc := (s.agent (.stopTx c)).acc) (q := []) (by simpa using hrun) (by simpa using hc) (by simpa using ready_busLock h)
    (fun cmd => hazard_none _ _ _ _ (by simpa using hw) (by simpa [hlen] using hl)) (by simp) hp
  obtain ⟨j, rfl⟩ := quantum_split hk
  rw [hcode, stopTxCode, run_acquireCh hrun hf rfl hp]
  refine hsettle.trans ?_
  rw [settled_setLock s _ c _ hlen, ← Nat.add_assoc,
    run_releaseCh_setChan (by simpa using hrun) (by simpa [hlen'] using hlen) rfl hds hp,
    run_done (by simpa using hg), run_done (by simpa using hg)]
  simp [chan_unlock ((hlock hlen).trans hf)]

/-! ## The dispatcher's services -/

section

variable {s t : State} {p : State → Bool} {m : Nat} {x : List Byte}

/-- A resting dispatcher is between two control states (R170). -/
theorem resting_dispatcherAt {d : DState} (hr : s.resting .dispatcher = true) (hd : s.ds = d) : s.dispatcherAt d = true := by
  obtain ⟨-, hcode, hst, -⟩ := resting_iff.mp hr
  simp [State.dispatcherAt, State.isIdle, hcode, hst, hd]

/-- A run of a resting dispatcher that comes in at most `m` statements to the state `t`, where its condition fails, with `x` the
bytes it read last: the dispatcher is between two control states again, and all else is as in `t` (R10, R40). -/
theorem runDispatcher_returns (hr : s.resting .dispatcher = true) (hq : m ≤ s.quantum) (hend : ∀ a, p (t.setAgent .dispatcher a) = false)
    (hrun : ∀ n, ∃ k, State.runWhile p (n + m) .dispatcher (s.setAgent .dispatcher (ctl [] s.disp.acc [])) =
      State.runWhile p k .dispatcher (t.setAgent .dispatcher (ctl [] x []))) :
    s.runDispatcher p = t.setAgent .dispatcher { s.disp with acc := x } := by
  obtain ⟨n, hn⟩ := quantum_split hq
  obtain ⟨k, hrun⟩ := hrun n
  have hback : s.setAgent .dispatcher (ctl [] s.disp.acc []) = s := resting_setAgent hr
  have hacc : ctl [] x [] = { s.disp with acc := x } := resting_acc hr x
  rw [hback, ← hn, runWhile_stop (hend _), hacc] at hrun
  exact hrun

/-- Such a run that reads nothing leaves the dispatcher as it was (R10, R40). -/
theorem runDispatcher_leaves (hr : s.resting .dispatcher = true) (hq : m ≤ s.quantum) (hend : ∀ a, p (t.setAgent .dispatcher a) = false)
    (hrun : ∀ n, ∃ k, State.runWhile p (n + m) .dispatcher (s.setAgent .dispatcher (ctl [] s.disp.acc [])) =
      State.runWhile p k .dispatcher (t.setAgent .dispatcher (ctl [] s.disp.acc []))) (ht : t.disp = s.disp) :
    s.runDispatcher p = t := by
  rw [runDispatcher_returns hr hq hend hrun, ← ht]
  rfl

end

/-! ## TX_SETTLE by the dispatcher -/

/-- The settling of the transmit service run to its end, in at most 14 statements (R205, R211). -/
theorem run_ds_settle {s : State} {p : State → Bool} {c n : Nat} {acc : List Byte} {q : List Instr}
    (h : s.runs .dispatcher = true) (hd : s.ds = .tx c .settle) (hc : c < s.params.nCh) (hb : s.busLock = .free)
    (hz : ∀ cmd, s.hazard .dispatcher c cmd = none) (hp : FollowsDs p (.tx c .settle)) : ∃ k, n ≤ k ∧
    State.runWhile p (n + 14) .dispatcher (s.setAgent .dispatcher (ctl [] acc q)) =
      State.runWhile p k .dispatcher (((s.settled .dispatcher c).1.withDs (.tx c .done)).setAgent .dispatcher
        (ctl [] (s.settled .dispatcher c).2 q)) := by
  obtain ⟨-, hds, -⟩ := settled_frame s .dispatcher c
  obtain ⟨k, hk, hsettle⟩ := run_settle (n := n + 1) (rest := [.setDs (.tx c .done)]) (acc := acc) (q := q) h hc hb hz hd
    (hp.follows _)
  obtain ⟨j, rfl⟩ := quantum_split hk
  refine ⟨j + n, by omega, ?_⟩
  rw [run_ds_load h hd rfl hp rfl]
  refine hsettle.trans ?_
  exact run_goOn (n := j + n) (by simpa using h) ((hp.follows _).loaded (hds.trans hd) rfl) rfl

/-- Settles O39: the stop-transmit task settles under the channel lock (`exec_stopTxCode`) or waits for it (`request_waits`), and
the dispatcher settles where it is in its transmit service (`run_ds_settle`). -/
theorem txSettleCases : Obligations.TxSettleCases := by
  refine ⟨fun s c i h hc hlen hi => ?_, fun s c ht hr hd hc hlen _ hw hl hq => ?_⟩
  · have hrun : s.askedOf i = some (.stopTx c) ∧ requestCode s.params i = stopTxCode c := by
      obtain rfl | ⟨rfl, hn⟩ := hi
      · exact ⟨if_pos hc, rfl⟩
      · exact ⟨(if_neg hn).trans (if_pos hc), rfl⟩
    obtain ⟨hask, hcode⟩ := hrun
    refine ⟨fun hf hw hl hq => exec_stopTxCode hask hcode h hc hlen hf hw hl hq, fun g hf hq => ⟨[.settle c, .releaseCh c], ?_⟩⟩
    rw [exec_asked hask, request_waits h hq hcode hf]
  · obtain ⟨-, -, -, -, -, hb⟩ := resting_iff.mp hr
    have hp : FollowsDs (State.inSettle c) (.tx c .settle) := fun t ht => by simp [State.inSettle, ht]
    have hsettle : s.runDispatcher (State.inSettle c) = ((s.settled .dispatcher c).1.withDs (.tx c .done)).setAgent .dispatcher
        { s.disp with acc := (s.settled .dispatcher c).2 } :=
      runDispatcher_returns hr hq (fun a => by simp [State.inSettle]) fun n =>
        (run_ds_settle (resting_runs hr) hd hc hb (fun cmd => hazard_none _ _ _ _ hw hl) hp).imp fun _ => And.right
    rw [exec, execTxSettle, if_pos ⟨ht, resting_dispatcherAt hr hd⟩, hsettle]

/-! ## The transmit service -/

section

variable {s : State} {c n : Nat} {acc : List Byte} {q : List Instr}

/-- The entry of the transmit service: on to the control byte, or to the queue (R200). -/
theorem run_txEntry {st : TxStage} (h : s.runs .dispatcher = true) (hd : s.ds = .tx c .start)
    (hst : (if (s.chan c).xChar.isSome then .xChar else .check) = st) :
    State.runWhile (State.inTx c) (n + 1) .dispatcher (s.setAgent .dispatcher (ctl [] acc q)) =
      State.runWhile (State.inTx c) n .dispatcher ((s.withDs (.tx c st)).setAgent .dispatcher (ctl [] acc q)) :=
  hst ▸ run_ds_goOn h hd rfl (followsDs_inTx c .start (by simp)) rfl

/-- The test of the queue: on to the settling, or to a burst (R205, R206). -/
theorem run_txCheck {st : TxStage} (h : s.runs .dispatcher = true) (hd : s.ds = .tx c .check)
    (hst : (if (s.chan c).txQueue.isEmpty || (s.chan c).txStopped then .settle else .burst) = st) :
    State.runWhile (State.inTx c) (n + 1) .dispatcher (s.setAgent .dispatcher (ctl [] acc q)) =
      State.runWhile (State.inTx c) n .dispatcher ((s.withDs (.tx c st)).setAgent .dispatcher (ctl [] acc q)) :=
  hst ▸ run_ds_goOn h hd rfl (followsDs_inTx c .check (by simp)) rfl

/-- The control-byte path run to its end, six statements: the byte is written, counted and cleared (R203). -/
theorem run_txXChar {b : Byte} (h : s.runs .dispatcher = true) (hd : s.ds = .tx c .xChar) (hc : c < s.params.nCh)
    (hb : s.busLock = .free) (hz : s.hazard .dispatcher c (writeCmd c 0) = none) (hx : (s.chan c).xChar = some b) :
    State.runWhile (State.inTx c) (n + 6) .dispatcher (s.setAgent .dispatcher (ctl [] acc q)) =
      State.runWhile (State.inTx c) n .dispatcher
        ((((s.sent .dispatcher .write c 0 [b]).withDs (.tx c .done)).setChan c { s.chan c with
          xChar := none, counters := { (s.chan c).counters with tx := (s.chan c).counters.tx + 1 } }).setAgent .dispatcher
            (ctl [] acc q)) := by
  have hg := State.runs_hasAgent h
  have hp := followsDs_inTx c .xChar (by simp)
  rw [run_ds_goOn (t := s) (acc' := acc) (code := writeCode c 0 b ++ [.txXCharDone c]) h hd rfl hp
      (by simp [State.doStmt, hx, hg, offData]), show n + 5 = n + 1 + 4 by rfl,
    run_write h hc (by decide) hb hz hd (hp.follows _)]
  exact run_goOn (by simpa using h) ((hp.follows _).loaded (by simpa using hd) rfl) (by simp [State.doStmt, State.txXCharDone, hg])

/-- The burst run to its end, six statements: the first bytes of the queue go through the scratch buffer and out in one
transaction, leave the queue and are counted (R206, R207). -/
theorem run_txBurst (h : s.runs .dispatcher = true) (hd : s.ds = .tx c .burst) (hc : c < s.params.nCh)
    (hb : s.busLock = .free) (hz : s.hazard .dispatcher c (writeCmd c 0) = none) (hq : (s.chan c).txQueue ≠ []) :
    State.runWhile (State.inTx c) (n + 6) .dispatcher (s.setAgent .dispatcher (ctl [] acc q)) =
      State.runWhile (State.inTx c) n .dispatcher
        (((((s.sent .dispatcher .burstWrite c 0 (s.burstBytes c)).withScratch
          (s.burstBytes c ++ s.scratch.drop (s.burstBytes c).length)).withDs (.tx c .wake)).setChan c { s.chan c with
            txQueue := (s.chan c).txQueue.drop (s.burstBytes c).length
            counters := { (s.chan c).counters with
              tx := (s.chan c).counters.tx + (s.burstBytes c).length } }).setAgent .dispatcher (ctl [] acc q)) := by
  have hg := State.runs_hasAgent h
  have hp := followsDs_inTx c .burst (by simp)
  have hlen : (s.burstBytes c).length = min Config.fifoDepth (s.chan c).txQueue.length := List.length_take
  have hpos := List.length_pos_of_ne_nil hq
  rw [run_ds_goOn (t := s.withScratch (s.burstBytes c ++ s.scratch.drop (s.burstBytes c).length)) (acc' := acc)
      (code := burstWriteCode c 0 (s.burstBytes c) ++ [.txBurstDone c (s.burstBytes c).length]) h hd rfl hp rfl,
    show n + 5 = n + 1 + 4 by rfl,
    run_burstWrite (by simpa using h) (by simpa using hc) (by rw [hlen, Config.fifoDepth]; omega)
      (by rw [hlen]; exact min_le_left _ _) (by simpa using hb) (by simpa using hz) (by simpa using hd) (hp.follows _)]
  exact run_goOn (by simpa using h) ((hp.follows _).loaded (by simpa using hd) rfl) (by simp [State.doStmt, State.txBurstDone, hg])

/-- The wake test, one statement: the writers are notified if fewer than `lowWater` bytes remain (R208). -/
theorem run_txWake (h : s.runs .dispatcher = true) (hd : s.ds = .tx c .wake) :
    State.runWhile (State.inTx c) (n + 1) .dispatcher (s.setAgent .dispatcher (ctl [] acc q)) =
      State.runWhile (State.inTx c) n .dispatcher
        (((s.show (if (s.chan c).txQueue.length < s.params.lowWater then [.emit (.wakeWriters c)] else [])).withDs
          (.tx c .done)).setAgent .dispatcher (ctl [] acc q)) :=
  run_ds_goOn h hd rfl (followsDs_inTx c .wake (by simp)) rfl

/-- TX_SETTLE does not look at the dispatcher's control state. -/
theorem settled_withDs (s : State) (d : DState) (g : Agent) (c : Nat) :
    (s.withDs d).settled g c = ((s.settled g c).1.withDs d, (s.settled g c).2) := by
  unfold State.settled
  by_cases he : (s.chan c).rs485.enabled = true
  · by_cases ht : ((s.drawBytes 1).head?.getD 0#8).has 6 = true
    · by_cases hq : (s.chan c).txQueue = [] <;> simp [State.txDisabled, State.updated, he, ht, hq]
    · simp [he, ht]
  · simp [State.txDisabled, State.updated, he]

/-- TX_SERVICE of a resting dispatcher at the service's entry runs it (R200). -/
theorem exec_txService (hr : s.resting .dispatcher = true) (hd : s.ds = .tx c .start) :
    exec (.txService c) s = .next (s.runDispatcher (State.inTx c)) := by
  rw [exec, execTxService, if_pos (resting_dispatcherAt hr hd)]

/-- The transmit service ends at its last control state (R200). -/
theorem inTx_done (t : State) (a : AgentCtl) : State.inTx c (State.setAgent (t.withDs (.tx c .done)) .dispatcher a) = false := by
  simp [State.inTx]

end

/-- Settles O35: the control-byte path (`run_txXChar`), which does not look at the queue nor at the stopped flag. -/
theorem txServiceSendsControlByte : Obligations.TxServiceSendsControlByte := by
  intro s c b hr hd hc hlen hz hx hq
  obtain ⟨-, -, -, -, -, hb⟩ := resting_iff.mp hr
  have hrun := resting_runs hr
  rw [exec_txService hr hd]
  refine congrArg _ (runDispatcher_leaves hr hq (fun a => inTx_done (State.setChan _ c _) a) (fun n => ⟨n, ?_⟩) rfl)
  rw [run_txEntry (st := .xChar) hrun hd (by simp [hx]),
    run_txXChar (s := s.withDs (.tx c .xChar)) hrun rfl hc hb (by simpa using hz) (by simpa using hx)]
  simp

/-- Settles O36: the burst (`run_txBurst`), then the wake test on what remains (`run_txWake`). -/
theorem txServiceSendsBurst : Obligations.TxServiceSendsBurst := by
  intro s c hr hd hc hlen hz hx hqueue hst hq
  obtain ⟨-, -, -, -, -, hb⟩ := resting_iff.mp hr
  have hrun := resting_runs hr
  have hburst : (s.withDs (.tx c .burst)).burstBytes c = (s.chan c).txQueue.take (min (s.chan c).txQueue.length 16) := by
    rw [State.burstBytes, Config.fifoDepth, Nat.min_comm, List.take_eq_take_min, State.withDs_chan]
  rw [exec_txService hr hd]
  refine congrArg _ (runDispatcher_leaves hr hq (fun a => inTx_done (State.setChan _ c _) a) (fun n => ⟨n, ?_⟩) rfl)
  rw [run_txEntry (st := .check) hrun hd (by simp [hx]), run_txCheck (st := .burst) (by simpa using hrun) rfl (by simp [hqueue, hst]),
    State.withDs_withDs, show n + 7 = n + 1 + 6 by rfl,
    run_txBurst (s := s.withDs (.tx c .burst)) hrun rfl hc hb (by rw [hazard_withDs]; exact hz) hqueue,
    run_txWake (by simpa using hrun) rfl]
  simp [hlen, hburst]

/-- Settles O37: the service comes to its settling (`run_ds_settle`) in two statements. -/
theorem txServiceSettles : Obligations.TxServiceSettles := by
  intro s c hr hd hc hlen hw hl hx hqueue hq
  obtain ⟨-, -, -, -, -, hb⟩ := resting_iff.mp hr
  have hrun := resting_runs hr
  rw [exec_txService hr hd]
  refine congrArg _ (runDispatcher_returns hr hq (inTx_done _) fun n => ?_)
  rw [run_txEntry (st := .check) hrun hd (by simp [hx]), run_txCheck (st := .settle) (by simpa using hrun) rfl
      (by rw [if_pos]; simpa using hqueue),
    State.withDs_withDs]
  obtain ⟨k, -, hsettle⟩ := run_ds_settle (n := n) (s := s.withDs (.tx c .settle)) (acc := s.disp.acc) (q := [])
    (by simpa using hrun) rfl hc hb (fun cmd => hazard_none _ _ _ _ hw hl) (followsDs_inTx c .settle (by simp))
  exact ⟨k, hsettle.trans (by rw [settled_withDs, State.withDs_withDs])⟩

/-! ## The modem-status service -/

/-- Settles O38: READ of MSR, then the byte is cached. -/
theorem msiServiceCachesByte : Obligations.MsiServiceCachesByte := by
  intro s c hr hd hc hz hq
  obtain ⟨-, -, -, -, -, hb⟩ := resting_iff.mp hr
  have hrun := resting_runs hr
  have hp := followsDs_inMsi c
  rw [exec, execMsiService, if_pos (resting_dispatcherAt hr hd)]
  refine congrArg _ (runDispatcher_returns hr hq (fun a => by simp [State.inMsi]) fun n => ⟨n, ?_⟩)
  rw [run_ds_read hrun hd rfl hc (by decide) hb hz hp]
  exact run_goOn (by simpa using hrun) ((hp.follows _).loaded (by simpa using hd) rfl)
    (by simp [State.doStmt, State.runs_hasAgent hrun, offMsr])

end Sys2Proof.Machine
end

section
/-! SUPPORT. The receive service: CLASSIFY bit by bit (R196), the service's control states run one after another, and the drain they
make up (R190 to R197). -/

namespace Sys2Proof.Machine

/-! ## CLASSIFY -/

theorem has_and (v m : Byte) (i : Nat) : (v &&& m).has i = (v.has i && m.has i) := BitVec.getLsbD_and

section

variable (l m : Byte)

/-- The error bits after the break clear: break and overrun as in the line status, parity and frame only without a break (R196). -/
theorem classifyErrors_has : (classifyErrors l).has 4 = l.has 4 ∧ (classifyErrors l).has 1 = l.has 1 ∧
    (classifyErrors l).has 2 = (l.has 2 && !l.has 4) ∧ (classifyErrors l).has 3 = (l.has 3 && !l.has 4) := by
  cases h : l[4] <;> simp [classifyErrors, errBits, Byte.has, h]

/-- The counters of CLASSIFY, each raised by the condition it counts (R196). -/
theorem classifyCounters_eq (k : Counters) :
    classifyCounters l k = { k with
      rx := k.rx + 1
      brk := k.brk + (l.has 4).toNat
      parity := k.parity + (l.has 2 && !l.has 4).toNat
      frame := k.frame + (l.has 3 && !l.has 4 && !(l.has 2 && !l.has 4)).toNat
      overrun := k.overrun + (l.has 1).toNat } := by
  obtain ⟨h4, h1, h2, h3⟩ := classifyErrors_has l
  rw [classifyCounters, h4, h1, h2, h3]
  cases l.has 4 with
  | true => simp [Bool.toNat, cond_eq_ite]
  | false => simp [Bool.toNat, cond_eq_ite, and_comm]

/-- The flag of CLASSIFY: the first of break, parity and frame that is reported (R196). -/
theorem classifyFlag_eq : classifyFlag l m =
    if l.has 4 && m.has 4 then .brk
    else if l.has 2 && !l.has 4 && m.has 2 then .parity
    else if l.has 3 && !l.has 4 && m.has 3 then .frame else .normal := by
  obtain ⟨h4, -, h2, h3⟩ := classifyErrors_has l
  rw [classifyFlag, has_and, has_and, has_and, h4, h2, h3]

/-- The mask of the ignore test leaves nothing of a byte exactly when bits 2, 3 and 4 are clear (R196). -/
theorem and_ignorable_eq_zero (v : Byte) : (v &&& (0x04#8 ||| 0x08#8 ||| 0x10#8) == 0#8) = !(v.has 4 || v.has 2 || v.has 3) := by
  revert v
  decide

/-- The ignore test of CLASSIFY: break, parity or frame in the ignore mask, and not overrun (R196). -/
theorem classifyForwarded_eq : classifyForwarded l m =
    !(l.has 4 && m.has 4 || l.has 2 && !l.has 4 && m.has 2 || l.has 3 && !l.has 4 && m.has 3) := by
  obtain ⟨h4, -, h2, h3⟩ := classifyErrors_has l
  rw [classifyForwarded, BitVec.and_assoc, BitVec.and_comm _ m, ← BitVec.and_assoc, and_ignorable_eq_zero,
    has_and, has_and, has_and, h4, h2, h3]

end

/-- Settles O34: the counters, the flag and the ignore test, each by the bits of the line status and the masks. -/
theorem classifyPriority : Obligations.ClassifyPriority := by
  intro x b l
  rw [Chan.classify, classifyCounters_eq, classifyFlag_eq, classifyForwarded_eq]
  have batch : ∀ (i : Bool) (e : Byte × RxFlag),
      (if (!i) = true then x.rxBatch ++ [e] else x.rxBatch) = x.rxBatch ++ (if i = true then [] else [e]) :=
    fun i e => by cases i <;> simp
  rw [batch]
  rfl

/-! ## The control states of the receive service -/

@[simp] theorem cameTo_chan (s : State) (d : DState) (l : List Obs) (r : List Draw) (k c : Nat) :
    (s.cameTo d l r k).chan c = s.chan c := rfl

@[simp] theorem cameTo_ch (s : State) (d : DState) (l : List Obs) (r : List Draw) (k : Nat) : (s.cameTo d l r k).ch = s.ch := rfl

@[simp] theorem cameTo_ds (s : State) (d : DState) (l : List Obs) (r : List Draw) (k : Nat) : (s.cameTo d l r k).ds = d := rfl

@[simp] theorem cameTo_runs (s : State) (d : DState) (l : List Obs) (r : List Draw) (k : Nat) (g : Agent) :
    (s.cameTo d l r k).runs g = s.runs g := by cases g <;> rfl

@[simp] theorem setChan_cameTo (s : State) (d : DState) (l : List Obs) (r : List Draw) (k c : Nat) (x : Chan) :
    (s.setChan c x).cameTo d l r k = (s.cameTo d l r k).setChan c x := rfl

section

variable (c : Nat) (src : RxSource)

/-- The wait reads LSR (R193). -/
theorem dispatchCode_waitDr : dispatchCode (.rx c src .waitDr) = readCode c 5 ++ [.waitDrTest c src] := by cases src <;> rfl

/-- The byte behind the line status `l` is read and classified with it (R194). -/
theorem dispatchCode_byte (l : Byte) : dispatchCode (.rx c src (.byte l)) = readCode c 0 ++ [.classify c l src .reLsr] := by
  cases src <;> rfl

/-- The continue test reads LSR (R195). -/
theorem dispatchCode_reLsr : dispatchCode (.rx c src .reLsr) = readCode c 5 ++ [.reLsrTest c src] := by cases src <;> rfl

/-- The flush is one statement (R197). -/
theorem dispatchCode_flush : dispatchCode (.rx c src .flush) = [.flush c] := by cases src <;> rfl

end

section

variable {s : State} {c n : Nat} {src : RxSource} {acc : List Byte} {q : List Instr} {rest : List Draw}

/-- A control state of the receive service that is a READ and one statement on its byte, run to its end in the state `t`. -/
theorem run_rx_read {st : RxStage} {r : Nat} {m : Stmt} {x : Bool × Byte} {t : State} (h : s.runs .dispatcher = true)
    (hb : s.busLock = .free) (hw : s.dlabWindow = none) (hc : c < s.params.nCh) (hr : r < 8) (hd : s.ds = .rx c src st)
    (hcode : dispatchCode (.rx c src st) = readCode c r ++ [m]) (ho : s.oracle = answer x :: rest)
    (hm : ((s.cameTo s.ds (readShown c r x) rest 1).setAgent .dispatcher (ctl [m] [x.2] q)).doStmt .dispatcher m [] =
      t.setAgent .dispatcher (ctl [] [x.2] q)) :
    State.runWhile (State.inRx c) (n + 5) .dispatcher (s.setAgent .dispatcher (ctl [] acc q)) =
      State.runWhile (State.inRx c) n .dispatcher (t.setAgent .dispatcher (ctl [] [x.2] q)) := by
  have hp := followsDs_inRx c src st
  rw [run_ds_read h hd hcode hc hr hb (hazard_readCmd hw _ _ _) hp, received_of_oracle ho, drawBytes_of_oracle ho]
  exact run_goOn h (hp _ hd) hm

/-- The entry from a line-status source whose FIFO-error bit is clear, five statements: on to the wait (R191). -/
theorem run_rlsCheck_clear {x : Bool × Byte} (h : s.runs .dispatcher = true) (hb : s.busLock = .free) (hw : s.dlabWindow = none)
    (hc : c < s.params.nCh) (hd : s.ds = .rx c .rls .start) (ho : s.oracle = answer x :: rest) (hx : x.2.getLsbD 7 = false) :
    State.runWhile (State.inRx c) (n + 5) .dispatcher (s.setAgent .dispatcher (ctl [] acc q)) =
      State.runWhile (State.inRx c) n .dispatcher
        ((s.cameTo (.rx c .rls .waitDr) (readShown c 5 x) rest 1).setAgent .dispatcher (ctl [] [x.2] q)) := by
  have hx' : ¬lsrFifoErr x.2 = true := by rw [lsrFifoErr, Byte.has, hx]; exact Bool.false_ne_true
  exact run_rx_read h hb hw hc (by decide) hd rfl ho (if_neg hx')

/-- The entry from another source, one statement: on to the wait (R190). -/
theorem run_rx_start (h : s.runs .dispatcher = true) (hd : s.ds = .rx c src .start) (hs : src ≠ .rls) :
    State.runWhile (State.inRx c) (n + 1) .dispatcher (s.setAgent .dispatcher (ctl [] acc q)) =
      State.runWhile (State.inRx c) n .dispatcher
        ((s.cameTo (.rx c src .waitDr) [] s.oracle 0).setAgent .dispatcher (ctl [] acc q)) := by
  have hcode : dispatchCode (.rx c src .start) = [.setDs (.rx c src .waitDr)] := by
    cases src with
    | rls => exact absurd rfl hs
    | rda => rfl
    | rto => rfl
  refine run_ds_goOn h hd hcode (followsDs_inRx c src .start) ?_
  rw [State.cameTo, List.append_nil]
  rfl

/-- The service comes to its wait in at most five statements: a line-status source reads LSR first (R190, R191). -/
theorem run_rx_first {first : List (Bool × Byte)} (h : s.runs .dispatcher = true) (hb : s.busLock = .free)
    (hw : s.dlabWindow = none) (hc : c < s.params.nCh) (hd : s.ds = .rx c src .start)
    (hf : if src = .rls then ∃ x, first = [x] ∧ x.2.getLsbD 7 = false else first = [])
    (ho : s.oracle = first.map answer ++ rest) : ∃ acc' k, n ≤ k ∧
    State.runWhile (State.inRx c) (n + 5) .dispatcher (s.setAgent .dispatcher (ctl [] acc q)) =
      State.runWhile (State.inRx c) k .dispatcher
        ((s.cameTo (.rx c src .waitDr) (first.flatMap (readShown c 5)) rest first.length).setAgent .dispatcher
          (ctl [] acc' q)) := by
  by_cases hs : src = .rls
  · subst hs
    obtain ⟨x, rfl, hx⟩ := (if_pos rfl).mp hf
    refine ⟨[x.2], n, le_refl _, ?_⟩
    rw [run_rlsCheck_clear h hb hw hc hd ho hx, List.flatMap_singleton]
    rfl
  · rw [if_neg hs] at hf
    subst hf
    refine ⟨acc, n + 4, by omega, ?_⟩
    rw [run_rx_start h hd hs, ho]
    rfl

/-- The wait for data ready, by induction on the line statuses without it: LSR is read once for each (R193). -/
theorem run_waits (waits : List (Bool × Byte)) : ∀ {s : State} (acc : List Byte), s.runs .dispatcher = true →
    s.busLock = .free → s.dlabWindow = none → c < s.params.nCh → s.ds = .rx c src .waitDr →
    (∀ x ∈ waits, x.2.getLsbD 0 = false) → s.oracle = waits.map answer ++ rest →
    ∃ acc', State.runWhile (State.inRx c) (n + 5 * waits.length) .dispatcher (s.setAgent .dispatcher (ctl [] acc q)) =
      State.runWhile (State.inRx c) n .dispatcher
        ((s.cameTo (.rx c src .waitDr) (waits.flatMap (readShown c 5)) rest waits.length).setAgent .dispatcher
          (ctl [] acc' q)) := by
  induction waits with
  | nil => exact fun acc _ _ _ _ hd _ ho => ⟨acc, congrArg (State.runWhile _ n _ <| State.setAgent · _ _) (cameTo_self hd ho).symm⟩
  | cons x waits ih =>
    intro s acc h hb hw hc hd hx ho
    have hx0 : (if lsrDr x.2 then RxStage.byte x.2 else .waitDr) = .waitDr := by
      rw [lsrDr, Byte.has, hx x List.mem_cons_self]
      rfl
    have hread := run_rx_read (n := n + 5 * waits.length) (acc := acc) (q := q)
      (t := s.cameTo (.rx c src .waitDr) (readShown c 5 x) (waits.map answer ++ rest) 1) h hb hw hc (by decide) hd
      (dispatchCode_waitDr c src) ho
      (congrArg (fun st => State.setAgent (s.cameTo (.rx c src st) _ _ 1) .dispatcher (ctl [] [x.2] q)) hx0)
    obtain ⟨acc', hrun⟩ := ih (s := s.cameTo (.rx c src .waitDr) (readShown c 5 x) (waits.map answer ++ rest) 1) [x.2] h hb hw hc
      rfl (fun y hy => hx y (List.mem_cons_of_mem _ hy)) rfl
    refine ⟨acc', hread.trans (hrun.trans ?_)⟩
    rw [cameTo_cameTo, List.flatMap_cons, List.length_cons, Nat.add_comm 1]

/-- A byte of the drain, ten statements: from the wait or the continue test, LSR shows data ready, and a byte is read and
classified with it (R194, R195). -/
theorem run_rx_byte {st : RxStage} {x : (Bool × Byte) × (Bool × Byte)} (h : s.runs .dispatcher = true) (hb : s.busLock = .free)
    (hw : s.dlabWindow = none) (hc : c < s.params.nCh) (hd : s.ds = .rx c src st) (hst : st = .waitDr ∨ st = .reLsr)
    (hx : x.1.2.getLsbD 0 = true) (ho : s.oracle = answer x.1 :: answer x.2 :: rest) :
    State.runWhile (State.inRx c) (n + 10) .dispatcher (s.setAgent .dispatcher (ctl [] acc q)) =
      State.runWhile (State.inRx c) n .dispatcher
        (((s.cameTo (.rx c src .reLsr) (readShown c 5 x.1 ++ readShown c 0 x.2) rest 2).setChan c
          ((s.chan c).classify x.2.2 x.1.2)).setAgent .dispatcher (ctl [] [x.2.2] q)) := by
  have hbyte : ∀ other, (if lsrDr x.1.2 then RxStage.byte x.1.2 else other) = .byte x.1.2 := fun other => by
    rw [lsrDr, Byte.has, hx, if_pos rfl]
  have hlsr : State.runWhile (State.inRx c) (n + 5 + 5) .dispatcher (s.setAgent .dispatcher (ctl [] acc q)) =
      State.runWhile (State.inRx c) (n + 5) .dispatcher ((s.cameTo (.rx c src (.byte x.1.2)) (readShown c 5 x.1)
        (answer x.2 :: rest) 1).setAgent .dispatcher (ctl [] [x.1.2] q)) := by
    obtain rfl | rfl := hst
    · exact run_rx_read h hb hw hc (by decide) hd (dispatchCode_waitDr c src) ho
        (congrArg (fun st => State.setAgent (s.cameTo (.rx c src st) _ _ 1) .dispatcher (ctl [] [x.1.2] q)) (hbyte .waitDr))
    · exact run_rx_read h hb hw hc (by decide) hd (dispatchCode_reLsr c src) ho
        (congrArg (fun st => State.setAgent (s.cameTo (.rx c src st) _ _ 1) .dispatcher (ctl [] [x.1.2] q)) (hbyte .flush))
  refine hlsr.trans (run_rx_read h hb hw hc (by decide) rfl (dispatchCode_byte c src _) rfl ?_)
  rw [cameTo_cameTo, cameTo_ds]
  rfl

/-- The drain, by induction on its bytes: each is read behind a line status that shows data ready, and classified in order
(R194, R195). -/
theorem run_drain (xs : List ((Bool × Byte) × (Bool × Byte))) : ∀ {s : State} {st : RxStage} (acc : List Byte)
    (x : (Bool × Byte) × (Bool × Byte)), s.runs .dispatcher = true → s.busLock = .free → s.dlabWindow = none →
    c < s.params.nCh → c < s.ch.length → s.ds = .rx c src st → (st = .waitDr ∨ st = .reLsr) →
    (∀ y ∈ x :: xs, y.1.2.getLsbD 0 = true) → s.oracle = (x :: xs).flatMap (fun y => [answer y.1, answer y.2]) ++ rest →
    ∃ acc', State.runWhile (State.inRx c) (n + 10 * (xs.length + 1)) .dispatcher (s.setAgent .dispatcher (ctl [] acc q)) =
      State.runWhile (State.inRx c) n .dispatcher
        (((s.cameTo (.rx c src .reLsr) ((x :: xs).flatMap fun y => readShown c 5 y.1 ++ readShown c 0 y.2) rest
          (2 * (xs.length + 1))).setChan c ((s.chan c).drained (x :: xs))).setAgent .dispatcher (ctl [] acc' q)) := by
  induction xs with
  | nil =>
    intro s st acc x h hb hw hc _ hd hst hx ho
    refine ⟨[x.2.2], ?_⟩
    rw [List.flatMap_singleton]
    exact run_rx_byte h hb hw hc hd hst (hx x List.mem_cons_self) ho
  | cons y xs ih =>
    intro s st acc x h hb hw hc hlen hd hst hx ho
    obtain ⟨acc', hrun⟩ := ih (s := (s.cameTo (.rx c src .reLsr) (readShown c 5 x.1 ++ readShown c 0 x.2)
      ((y :: xs).flatMap (fun y => [answer y.1, answer y.2]) ++ rest) 2).setChan c ((s.chan c).classify x.2.2 x.1.2)) [x.2.2] y
      (by simpa using h) hb hw hc (by simpa using hlen) rfl (.inr rfl) (fun z hz => hx z (List.mem_cons_of_mem _ hz)) rfl
    refine ⟨acc', ?_⟩
    rw [List.length_cons, show n + 10 * (xs.length + 1 + 1) = n + 10 * (xs.length + 1) + 10 by omega,
      run_rx_byte h hb hw hc hd hst (hx x List.mem_cons_self) ho]
    refine hrun.trans ?_
    rw [setChan_cameTo, cameTo_cameTo, State.setChan_setChan, State.setChan_chan_self _ _ _ (by simpa using hlen), List.flatMap_cons,
      Nat.mul_add 2 (xs.length + 1), Nat.add_comm 2]
    rfl

/-- The end of the drain, five statements: LSR shows no data ready (R195). -/
theorem run_rx_last {x : Bool × Byte} (h : s.runs .dispatcher = true) (hb : s.busLock = .free) (hw : s.dlabWindow = none)
    (hc : c < s.params.nCh) (hd : s.ds = .rx c src .reLsr) (hx : x.2.getLsbD 0 = false) (ho : s.oracle = answer x :: rest) :
    State.runWhile (State.inRx c) (n + 5) .dispatcher (s.setAgent .dispatcher (ctl [] acc q)) =
      State.runWhile (State.inRx c) n .dispatcher
        ((s.cameTo (.rx c src .flush) (readShown c 5 x) rest 1).setAgent .dispatcher (ctl [] [x.2] q)) := by
  have hflush : (if lsrDr x.2 then RxStage.byte x.2 else .flush) = .flush := by
    rw [lsrDr, Byte.has, hx]
    rfl
  exact run_rx_read h hb hw hc (by decide) hd (dispatchCode_reLsr c src) ho
    (congrArg (fun st => State.setAgent (s.cameTo (.rx c src st) _ _ 1) .dispatcher (ctl [] [x.2] q)) hflush)

/-- The flush, one statement, where the drain has left the record `y`: the batch is notified, if there is one, and is empty, and the
poll is next (R197). -/
theorem run_flush {l : List Obs} {k : Nat} {y : Chan} (h : s.runs .dispatcher = true) (hlen : c < s.ch.length) :
    State.runWhile (State.inRx c) (n + 1) .dispatcher
        (((s.cameTo (.rx c src .flush) l rest k).setChan c y).setAgent .dispatcher (ctl [] acc q)) =
      State.runWhile (State.inRx c) n .dispatcher
        (((s.cameTo (.pollLsr c) (l ++ batchShown c y.rxBatch) rest k).setChan c { y with rxBatch := [] }).setAgent .dispatcher
          (ctl [] acc q)) := by
  have hshow : (if y.rxBatch.isEmpty then [] else [.emit (.rxBatch c y.rxBatch)]) = batchShown c y.rxBatch := by
    rw [batchShown]
    cases y.rxBatch <;> rfl
  refine run_ds_goOn (by simpa using h) rfl (dispatchCode_flush c src) (followsDs_inRx c src .flush) ?_
  simp only [State.doStmt, State.flush, State.setAgent_chan,
    State.setChan_chan_self _ _ _ (show c < (s.cameTo _ l rest k).ch.length from hlen), hshow]
  rw [← State.setChan_setChan (s.cameTo (.pollLsr c) _ rest k) c y, State.cameTo, State.cameTo, ← List.append_assoc]
  rfl

/-- The service comes to the end of its wait: a line status for its entry, where the source is one, and one for each wait (R190,
R191, R193). -/
theorem run_rx_entry {first waits : List (Bool × Byte)} (h : s.runs .dispatcher = true) (hb : s.busLock = .free)
    (hw : s.dlabWindow = none) (hc : c < s.params.nCh) (hd : s.ds = .rx c src .start)
    (hf : if src = .rls then ∃ x, first = [x] ∧ x.2.getLsbD 7 = false else first = [])
    (hwait : ∀ x ∈ waits, x.2.getLsbD 0 = false) (ho : s.oracle = (first ++ waits).map answer ++ rest) : ∃ acc' k, n ≤ k ∧
    State.runWhile (State.inRx c) (n + 5 * waits.length + 5) .dispatcher (s.setAgent .dispatcher (ctl [] acc q)) =
      State.runWhile (State.inRx c) k .dispatcher
        ((s.cameTo (.rx c src .waitDr) ((first ++ waits).flatMap (readShown c 5)) rest (first.length + waits.length)).setAgent
          .dispatcher (ctl [] acc' q)) := by
  rw [List.map_append, List.append_assoc] at ho
  obtain ⟨acc1, k, hk, hfirst⟩ := run_rx_first (n := n + 5 * waits.length) (acc := acc) (q := q) h hb hw hc hd hf ho
  obtain ⟨j, rfl⟩ := quantum_split hk
  obtain ⟨acc2, hwaits⟩ := run_waits (c := c) (src := src) (n := j + n) (q := q) (rest := rest) waits
    (s := s.cameTo (.rx c src .waitDr) (first.flatMap (readShown c 5)) (waits.map answer ++ rest) first.length) acc1
    (by simpa using h) hb hw hc rfl hwait rfl
  rw [cameTo_cameTo, ← List.flatMap_append] at hwaits
  exact ⟨acc2, j + n, by omega, by rw [hfirst, ← Nat.add_assoc, hwaits]⟩

/-- The service comes from the end of its wait to its flush: the drain, and the line status that ends it (R194, R195). -/
theorem run_rx_drained {xs : List ((Bool × Byte) × (Bool × Byte))} {last : Bool × Byte} (h : s.runs .dispatcher = true)
    (hb : s.busLock = .free) (hw : s.dlabWindow = none) (hc : c < s.params.nCh) (hlen : c < s.ch.length)
    (hd : s.ds = .rx c src .waitDr) (hx : ∀ x ∈ xs, x.1.2.getLsbD 0 = true) (hne : xs ≠ []) (hlast : last.2.getLsbD 0 = false)
    (ho : s.oracle = xs.flatMap (fun x => [answer x.1, answer x.2]) ++ answer last :: rest) :
    State.runWhile (State.inRx c) (n + 5 + 10 * xs.length) .dispatcher (s.setAgent .dispatcher (ctl [] acc q)) =
      State.runWhile (State.inRx c) n .dispatcher
        (((s.cameTo (.rx c src .flush) (xs.flatMap (fun x => readShown c 5 x.1 ++ readShown c 0 x.2) ++ readShown c 5 last) rest
          (2 * xs.length + 1)).setChan c ((s.chan c).drained xs)).setAgent .dispatcher (ctl [] [last.2] q)) := by
  obtain ⟨x, xs, rfl⟩ := List.exists_cons_of_ne_nil hne
  obtain ⟨acc', hdrain⟩ := run_drain (n := n + 5) (acc := acc) (q := q) xs x h hb hw hc hlen hd (.inl rfl) hx ho
  rw [List.length_cons, hdrain, run_rx_last (by simpa using h) (by exact hb) (by exact hw) (by exact hc) rfl hlast rfl,
    setChan_cameTo, cameTo_cameTo]

/-- The service on a line status with the FIFO-error bit set comes to its flush, ten statements: one byte is read, and classified
with that line status whatever its data-ready bit (R191, R192). -/
theorem run_rlsCheck_error {x : (Bool × Byte) × (Bool × Byte)} (h : s.runs .dispatcher = true) (hb : s.busLock = .free)
    (hw : s.dlabWindow = none) (hc : c < s.params.nCh) (hd : s.ds = .rx c .rls .start) (hx : x.1.2.getLsbD 7 = true)
    (ho : s.oracle = answer x.1 :: answer x.2 :: rest) :
    State.runWhile (State.inRx c) (n + 10) .dispatcher (s.setAgent .dispatcher (ctl [] acc q)) =
      State.runWhile (State.inRx c) n .dispatcher
        (((s.cameTo (.rx c .rls .flush) (readShown c 5 x.1 ++ readShown c 0 x.2) rest 2).setChan c
          ((s.chan c).drained [x])).setAgent .dispatcher (ctl [] [x.2.2] q)) := by
  have hp := followsDs_inRx c .rls .start
  have hx' : lsrFifoErr x.1.2 = true := hx
  have hlsr : State.runWhile (State.inRx c) (n + 5 + 1 + 4) .dispatcher (s.setAgent .dispatcher (ctl [] acc q)) =
      State.runWhile (State.inRx c) (n + 1 + 4) .dispatcher ((s.cameTo (.rx c .rls .start) (readShown c 5 x.1)
        (answer x.2 :: rest) 1).setAgent .dispatcher (ctl (readCode c 0 ++ [.classify c x.1.2 .rls .flush]) [x.1.2] q)) := by
    rw [run_ds_read h hd rfl hc (by decide) hb (hazard_readCmd hw _ _ _) hp, received_of_oracle ho, drawBytes_of_oracle ho, ← hd]
    exact run_goOn h (hp _ hd) (if_pos hx')
  refine hlsr.trans ?_
  rw [run_read (by simpa using h) (by exact hc) (by decide) (by exact hb) (by exact hazard_readCmd hw _ _ _) rfl (hp.follows _),
    received_of_oracle rfl, drawBytes_of_oracle rfl]
  refine run_goOn (by exact h) (hp _ rfl) ?_
  rw [State.cameTo, State.cameTo, List.append_assoc]
  rfl

end

/-- RX_SERVICE of a resting dispatcher at the service's entry that comes to its flush in at most `m` statements: `l` was shown, `k`
answers were taken, the record is `y` and the byte read last is in `x` (R190, R197). -/
theorem exec_rxService {s : State} {c m k : Nat} {src : RxSource} {l : List Obs} {rest : List Draw} {y : Chan} {x : List Byte}
    (hr : s.resting .dispatcher = true) (hd : s.ds = .rx c src .start) (hlen : c < s.ch.length) (hq : m + 1 ≤ s.quantum)
    (hrun : ∀ n, ∃ j, n ≤ j ∧ State.runWhile (State.inRx c) (n + m) .dispatcher (s.setAgent .dispatcher (ctl [] s.disp.acc [])) =
      State.runWhile (State.inRx c) j .dispatcher
        (((s.cameTo (.rx c src .flush) l rest k).setChan c y).setAgent .dispatcher (ctl [] x []))) :
    exec (.rxService c src) s = .next
      { s with
        ds := .pollLsr c
        disp := { s.disp with acc := x }
        ch := s.ch.set c { y with rxBatch := [] }
        out := s.out ++ (l ++ batchShown c y.rxBatch)
        oracle := rest
        draws := s.draws + k } := by
  rw [exec, execRxService, if_pos (resting_dispatcherAt hr hd)]
  refine congrArg _ (runDispatcher_returns (t := (s.cameTo (.pollLsr c) _ _ _).setChan c _) hr hq (fun _ => rfl) fun n => ?_)
  obtain ⟨j, hj, hflush⟩ := hrun (n + 1)
  obtain ⟨i, rfl⟩ := quantum_split hj
  exact ⟨i + n, by rw [show n + (m + 1) = n + 1 + m by omega, hflush, ← Nat.add_assoc, run_flush (resting_runs hr) hlen]⟩

/-- Settles O32: the service comes to the end of its wait (`run_rx_entry`), drains (`run_rx_drained`), and flushes. -/
theorem rxServiceDrains : Obligations.RxServiceDrains := by
  intro s c src first waits xs last rest hr hd hc hlen hw hf hwait hx hne hlast ho hq
  obtain ⟨-, -, -, -, -, hb⟩ := resting_iff.mp hr
  have hrun := resting_runs hr
  rw [List.append_assoc] at ho
  have hflush : ∀ n, ∃ j, n ≤ j ∧ State.runWhile (State.inRx c) (n + (10 + 5 * waits.length + 10 * xs.length)) .dispatcher
      (s.setAgent .dispatcher (ctl [] s.disp.acc [])) = State.runWhile (State.inRx c) j .dispatcher
        (((s.cameTo (.rx c src .flush) ((first ++ waits).flatMap (readShown c 5) ++
          (xs.flatMap (fun x => readShown c 5 x.1 ++ readShown c 0 x.2) ++ readShown c 5 last)) rest
            (first.length + waits.length + (2 * xs.length + 1))).setChan c ((s.chan c).drained xs)).setAgent .dispatcher
              (ctl [] [last.2] [])) := fun n => by
    obtain ⟨acc, k, hk, hentry⟩ := run_rx_entry (n := n + 5 + 10 * xs.length) (acc := s.disp.acc) (q := []) hrun hb hw hc hd hf
      hwait ho
    obtain ⟨j, rfl⟩ := quantum_split hk
    have hdrain := run_rx_drained (n := j + n) (src := src) (acc := acc) (q := []) (rest := rest)
      (s := s.cameTo (.rx c src .waitDr) ((first ++ waits).flatMap (readShown c 5)) _ (first.length + waits.length))
      (by simpa using hrun) hb hw hc hlen rfl hx hne hlast rfl
    rw [cameTo_cameTo, cameTo_chan] at hdrain
    refine ⟨j + n, by omega, ?_⟩
    rw [show n + (10 + 5 * waits.length + 10 * xs.length) = n + 5 + 10 * xs.length + 5 * waits.length + 5 by omega, hentry,
      show j + (n + 5 + 10 * xs.length) = j + n + 5 + 10 * xs.length by omega, hdrain]
  rw [exec_rxService hr hd hlen (by omega) hflush]
  simp only [List.append_assoc, Nat.add_assoc]

/-- Settles O33: one byte behind the line status with the error bit (`run_rlsCheck_error`), and the flush. -/
theorem rxLineErrorReadsOneByte : Obligations.RxLineErrorReadsOneByte := by
  intro s c x rest hr hd hc hlen hw hx ho hq
  obtain ⟨-, -, -, -, -, hb⟩ := resting_iff.mp hr
  rw [exec_rxService hr hd hlen hq fun n => ⟨n, le_refl n, run_rlsCheck_error (resting_runs hr) hb hw hc hd hx ho⟩]
  simp

end Sys2Proof.Machine
end

section
/-! SUPPORT. The model's faults: a burst out of range (R139, R140, R248), and the faults through every step (R246). -/

namespace Sys2Proof.Machine

/-! ## Bursts out of range -/

section

variable {s : State} {g : Agent} {c : Nat} {rest : List Stmt}

/-- The second check of BURST_WRITE, not met on a channel that exists (R139). -/
theorem doStmt_checkBurstWrite_bad {startReg n : Nat} (hc : c < s.params.nCh)
    (hbad : startReg ≠ 0 ∨ n = 0 ∨ Config.fifoDepth < n) :
    s.doStmt g (.checkBurstWrite c startReg n) rest = s.raise g (.badBurst c startReg n) :=
  (if_neg (not_not.mpr hc)).trans (if_pos hbad)

/-- The second check of BURST_READ, not met on a channel that exists (R140). -/
theorem doStmt_checkBurstRead_bad (hc : c < s.params.nCh) :
    s.doStmt g (.checkBurstRead c 0) rest = s.raise g (.badBurst c 0 0) :=
  (if_neg (not_not.mpr hc)).trans (if_pos rfl)

end

/-- Settles O18: the first statement of each burst raises the fault, before the bus lock (`exec_raises`). -/
theorem badBurstStopsCaller : Obligations.BadBurstStopsCaller := by
  intro s c k bytes h hc hq
  refine ⟨fun hbad => ?_, ?_⟩
  · exact exec_raises h hq rfl rfl fun t ht => doStmt_checkBurstWrite_bad (by rwa [ht]) hbad
  · exact exec_raises h hq rfl rfl fun t ht => doStmt_checkBurstRead_bad (by rwa [ht])

/-! ## The faults through a step -/

/-- A fault raised leaves the ones before it recorded (R246). -/
theorem faults_subset_raise (s : State) (g : Agent) (f : ModelFault) : s.faults ⊆ (s.raise g f).faults :=
  fun k hk => (raise_faults s g f k).mpr (.inl hk)

/-- A fault that joins the set leaves the ones before it recorded (R246). -/
theorem faults_subset_addFault (s : State) (f : ModelFault) : s.faults ⊆ (s.addFault f).faults := by
  rw [State.addFault_faults]
  split
  · exact List.Subset.refl _
  · exact List.subset_append_left _ _

/-- What an agent's step from `s` to `t` does to the faults: it leaves them as they are, or it is the raising of one (R246). -/
def State.FaultsKeptOrRaised (s : State) (g : Agent) (t : State) : Prop := t.faults = s.faults ∨ ∃ f, t = s.raise g f

/-- In either case the faults recorded before stay recorded. -/
theorem State.FaultsKeptOrRaised.subset {s t : State} {g : Agent} (h : s.FaultsKeptOrRaised g t) : s.faults ⊆ t.faults := by
  obtain h | ⟨f, rfl⟩ := h
  · rw [h]
    exact List.Subset.refl _
  · exact faults_subset_raise s g f

/-- A read transaction inside a hazard raises it (R132, R285). -/
theorem txnRead_faultsKeptOrRaised (s : State) (g : Agent) (k : BusKind) (c r n : Nat) (rest : List Stmt) :
    s.FaultsKeptOrRaised g (s.txnRead g k c r n rest) := by
  unfold State.txnRead
  split
  · split
    · exact .inr ⟨_, rfl⟩
    · exact .inl (by simp)
  · exact .inl rfl

/-- A write transaction inside a hazard raises it (R132, R285, R286). -/
theorem txnWrite_faultsKeptOrRaised (s : State) (g : Agent) (k : BusKind) (c r : Nat) (data : List Byte) (rest : List Stmt) :
    s.FaultsKeptOrRaised g (s.txnWrite g k c r data rest) := by
  unfold State.txnWrite
  split
  · split
    · exact .inr ⟨_, rfl⟩
    · exact .inl (by simp)
  · exact .inl rfl

/-- The checks, the transactions and the status query may raise a fault; every other statement, ATTACH's initialisation included,
leaves the faults as they are (R246). -/
theorem doStmt_faultsKeptOrRaised (s : State) (g : Agent) (m : Stmt) (rest : List Stmt) :
    s.FaultsKeptOrRaised g (s.doStmt g m rest) := by
  cases m
  case txnRead => exact txnRead_faultsKeptOrRaised ..
  case txnWrite | txnUpdate | txnMcr => exact txnWrite_faultsKeptOrRaised ..
  case checkAddr =>
    rw [State.doStmt]
    split
    · exact .inl (by simp)
    · exact .inr ⟨_, rfl⟩
  case checkBurstWrite | checkBurstRead =>
    rw [State.doStmt]
    split
    · exact .inr ⟨_, rfl⟩
    · split
      · exact .inr ⟨_, rfl⟩
      · exact .inl (by simp)
  case getStatus =>
    rw [State.doStmt, State.getStatus]
    split
    · exact .inl (by simp)
    · exact .inr ⟨_, rfl⟩
  all_goals
    left
    simp only [State.doStmt, State.acquireBus, State.releaseBus, State.acquireCh, State.releaseCh, State.setLineStart,
      State.beginSession, State.settle, State.settleLsr, State.awaitTasks, State.rs485Start, State.initState, State.dispatchOn,
      State.classify, State.flush, State.txXCharDone, State.txBurst, State.txBurstDone, State.nextCh]
    (repeat' split) <;> simp

theorem agentStep_faultsKeptOrRaised (s : State) (g : Agent) : s.FaultsKeptOrRaised g (s.agentStep g) := by
  obtain hs | ⟨m, rest, -, hs⟩ := agentStep_cases s g
  · exact .inl (by rw [hs])
  · exact hs ▸ doStmt_faultsKeptOrRaised s g m rest

/-- Every update that operations make outside the steps of an agent keeps a fault recorded. -/
theorem kept_mem_faults (f : ModelFault) : Kept fun s => f ∈ s.faults where
  step s g hf := (agentStep_faultsKeptOrRaised s g).subset hf
  signal _ _ hf := hf
  ds _ _ hf := hf
  unexpected _ _ _ hf := hf
  start _ _ _ _ hf := by simpa
  pend _ _ _ hf := by simpa
  dispatched _ _ _ hf _ := hf
  raise s g k hf := faults_subset_raise s g k hf
  fault s k hf := faults_subset_addFault s k hf

/-- Settles O56: each statement keeps the faults or raises one, the updates around them keep a fault recorded, and the inputs
and the collaborator's acts write no fault. -/
theorem faultsAreNeverRemoved : Obligations.FaultsAreNeverRemoved := fun _ _ f hf h =>
  step_keeps (kept_mem_faults f) (fun _ hf => hf) (fun _ _ _ hf => hf) (fun _ _ _ hf => hf) (fun _ _ _ hf => hf) hf h

end Sys2Proof.Machine
end

section
/-! SUPPORT. Reset and the hazards: the parameters through every step (R272), the wait for ATTACH (R273), the hazard checks of a
transaction (R285, R286), and ATTACH, STARTUP and SHUTDOWN run to their end (R274 to R281). -/

namespace Sys2Proof.Machine

/-! ## Parameters, and the wait for ATTACH -/

/-- Settles O50: before ATTACH has ended an agent other than the one that runs it may not step. -/
theorem nothingStepsBeforeAttach : Obligations.NothingStepsBeforeAttach := by
  intro s g ha hg
  have hc : s.canStep g = false := by simp [State.canStep, ha, hg]
  simp [State.agentStep, hc]

/-- Every update that operations make outside the steps of an agent keeps the parameters (R272). -/
theorem kept_params (p : Params) : Kept fun s => s.params = p where
  step s g hp := (agentStep_params s g).trans hp
  signal _ _ hp := hp
  ds _ _ hp := hp
  unexpected _ _ _ hp := hp
  start _ _ _ _ hp := (State.setAgent_params ..).trans hp
  pend _ _ _ hp := (State.setAgent_params ..).trans hp
  dispatched _ _ _ hp _ := hp
  raise s g f hp := (raise_params s g f).trans hp
  fault _ _ hp := hp

/-- Settles O57: no statement writes a parameter (`doStmt_params`), nor do the updates around the statements, the inputs and the
collaborator's acts. -/
theorem parametersAreFixed : Obligations.ParametersAreFixed := fun s _ h =>
  step_keeps (kept_params s.params) (fun _ hp => hp) (fun _ _ _ hp => hp) (fun _ _ _ hp => hp) (fun _ _ _ hp => hp) rfl h

/-! ## The hazard checks -/

section

variable {s : State} {g : Agent} {c : Nat} {cmd : Byte}

/-- Inside another agent's divisor window a transaction meets DlabHazard (R285). -/
theorem hazard_inside {g0 : Agent} {c0 : Nat} (hw : s.dlabWindow = some (g0, c0)) (hg : g ≠ g0)
    (hs : s.params.dlabScope = .anyChannel ∨ c = c0) : s.hazard g c cmd = some (.dlabHazard g cmd) := by
  have hd : s.dlabBroken g c = true := by simpa [State.dlabBroken, hw, hg] using hs
  simp [State.hazard, hd]

/-- Bit 1 of a write command is set (R101, R103). -/
theorem cmdIsWrite_writeCmd (c r : Nat) : cmdIsWrite (writeCmd c r) = true := by
  rw [cmdIsWrite, Byte.has, writeCmd, BitVec.getLsbD_or, show (0x02#8).getLsbD 1 = true from rfl, Bool.true_or]

/-- With no divisor window open, a write of the dispatcher or of a deferred task on a shut channel meets PostShutdownWrite
(R286). -/
theorem hazard_shut (hw : s.dlabWindow = none) (hl : (s.chan c).life = .shut) (hg : g = .dispatcher ∨ g.isDeferred = true)
    (r : Nat) : s.hazard g c (writeCmd c r) = some (.postShutdownWrite c (writeCmd c r)) := by
  have hb : s.shutBroken g c (writeCmd c r) = true := by simpa [State.shutBroken, cmdIsWrite_writeCmd, hl] using hg
  simp [State.hazard, State.dlabBroken, hw, hb]

end

/-! ## Transactions that are not issued -/

/-- The statement `m` is a transaction on channel `c` with the command `cmd` (R132). -/
def Stmt.Transacts (m : Stmt) (c : Nat) (cmd : Byte) : Prop :=
  (∃ k r n, m = .txnRead k c r n ∧ cmd = readCmd c r) ∨ (∃ k r data, m = .txnWrite k c r data ∧ cmd = writeCmd c r) ∨
    (∃ r mask value, m = .txnUpdate c r mask value ∧ cmd = writeCmd c r) ∨ (m = .txnMcr c ∧ cmd = writeCmd c 4)

/-- A transaction of the bus holder that meets a hazard raises it (R132, R255). -/
theorem Stmt.Transacts.raises {s : State} {g : Agent} {c : Nat} {cmd : Byte} {f : ModelFault} {m : Stmt} {rest : List Stmt}
    (hm : m.Transacts c cmd) (hb : s.busLock = .held g) (hz : s.hazard g c cmd = some f) : s.doStmt g m rest = s.raise g f := by
  have read : ∀ k r n, s.hazard g c (readCmd c r) = some f → s.txnRead g k c r n rest = s.raise g f := fun k r n hz => by
    rw [State.txnRead, if_pos hb, hz]
  have write : ∀ k r data, s.hazard g c (writeCmd c r) = some f → s.txnWrite g k c r data rest = s.raise g f :=
    fun k r data hz => by rw [State.txnWrite, if_pos hb, hz]
  obtain ⟨k, r, n, rfl, rfl⟩ | ⟨k, r, data, rfl, rfl⟩ | ⟨r, mask, value, rfl, rfl⟩ | ⟨rfl, rfl⟩ := hm
  · exact read k r n hz
  · exact write k r data hz
  · exact write _ r _ hz
  · exact write _ 4 _ hz

/-- A bus operation of the calling agent whose check `m0` is met and whose first transaction meets the hazard `f`: `f` is recorded,
nothing is issued and the agent stops (R132, R246). -/
theorem exec_hazard {s : State} {c : Nat} {cmd : Byte} {i : Instr} {f : ModelFault} {m0 m : Stmt} {rest : List Stmt}
    (h : s.ready s.turn = true) (hq : 3 ≤ s.quantum) (hask : s.askedOf i = some s.turn)
    (hcode : requestCode s.params i = m0 :: .acquireBus :: m :: rest)
    (hcheck : ∀ t : State, t.params = s.params →
      t.doStmt s.turn m0 (.acquireBus :: m :: rest) = t.goOn s.turn (.acquireBus :: m :: rest))
    (hm : m.Transacts c cmd) (hz : s.hazard s.turn c cmd = some f) :
    ∃ code, exec i s = .next ((s.addFault f).setAgent s.turn { s.agent s.turn with code := code, stopped := true }) :=
  ⟨m :: rest, by rw [exec_asked hask, request_hazard h hq hcode (fun a => hcheck _ (by simp)) fun a =>
    hm.raises (by simp) (by simpa using hz)]⟩

/-- Settles O19: the transaction step of the intruder (`step_hazard`), and the first transaction of each bus operation
(`exec_hazard`). -/
theorem dlabHazardStopsIntruder : Obligations.DlabHazardStopsIntruder := by
  refine ⟨fun s g g0 c c0 cmd m rest hs hb hn hm hw hg hsc => step_hazard hs hb hn hm (hazard_inside hw hg hsc),
    fun s c c0 g0 i cmd h hc hq hw hg hsc hi => ?_⟩
  have hz : s.hazard s.turn c cmd = some (.dlabHazard s.turn cmd) := hazard_inside hw hg hsc
  obtain ⟨r, hr, rfl, rfl⟩ | ⟨r, v, hr, rfl, rfl⟩ | ⟨r, mask, value, hr, rfl, rfl⟩ | ⟨bytes, h1, h16, rfl, rfl⟩ |
    ⟨n, h1, rfl, rfl⟩ := hi
  · exact exec_hazard h hq rfl rfl (fun t ht => doStmt_checkAddr (by rwa [ht]) hr) (.inl ⟨_, r, _, rfl, rfl⟩) hz
  · exact exec_hazard h hq rfl rfl (fun t ht => doStmt_checkAddr (by rwa [ht]) hr) (.inr (.inl ⟨_, r, _, rfl, rfl⟩)) hz
  · exact exec_hazard h hq rfl rfl (fun t ht => doStmt_checkAddr (by rwa [ht]) hr) (.inl ⟨_, r, _, rfl, rfl⟩) hz
  · exact exec_hazard h hq rfl rfl (fun t ht => doStmt_checkBurstWrite (by rwa [ht]) h1 h16)
      (.inr (.inl ⟨_, 0, _, rfl, rfl⟩)) hz
  · exact exec_hazard h hq rfl rfl (fun t ht => doStmt_checkBurstRead (by rwa [ht]) h1) (.inl ⟨_, 0, _, rfl, rfl⟩) hz

/-- UPDATE whose read is issued and whose write meets the hazard `f`: `f` is recorded, the write is not issued and the agent
stops (R137, R246). -/
theorem exec_update_hazard {s : State} {c r : Nat} {mask value : Byte} {f : ModelFault} (h : s.ready s.turn = true)
    (hc : c < s.params.nCh) (hr : r < 8) (hq : 4 ≤ s.quantum) (hzr : s.hazard s.turn c (readCmd c r) = none)
    (hz : s.hazard s.turn c (writeCmd c r) = some f) :
    ∃ code, exec (.update c r mask value) s = .next (((s.received s.turn .read c r 1).addFault f).setAgent s.turn
        { s.agent s.turn with code := code, acc := s.drawBytes 1, stopped := true }) := by
  obtain ⟨k, hk⟩ := quantum_split hq
  have hrun := ready_runs h
  have hg := State.runs_hasAgent hrun
  have hb := ready_busLock h
  have hp := follows_hasCode s.turn s.ds
  have hcode : requestCode s.params (.update c r mask value) =
    [.checkAddr c r, .acquireBus, .txnRead .read c r 1, .txnUpdate c r mask value, .releaseBus] := rfl
  have hask : s.askedOf (.update c r mask value) = some s.turn := rfl
  refine ⟨[.txnUpdate c r mask value, .releaseBus], ?_⟩
  rw [exec_asked hask, request_ready h (by omega), hk, hcode, run_checkAddr hrun hc hr rfl hp,
    run_goOn (t := s.withBus (.held s.turn)) hrun (hp.loaded rfl hg) (by simp [State.doStmt, State.acquireBus, hb, hg]; rfl),
    run_goOn (t := (s.received s.turn .read c r 1).withBus (.held s.turn)) (acc' := s.drawBytes 1) (by simpa using hrun)
      (hp.loaded (by simp) (by simpa using hg)) (by simp [State.doStmt, State.txnRead, hzr, hg]; rfl),
    run_stmt (by simpa using hrun) (hp.loaded (by simp) (by simpa using hg)),
    Stmt.Transacts.raises (.inr (.inr (.inl ⟨r, mask, value, rfl, rfl⟩))) (by simp) (by simpa using hz),
    runWhile_stopped (by simp [hg, State.raise, State.dropBus])]
  obtain ⟨-, -, -, hpe, -⟩ := resting_iff.mp (ready_resting h)
  simp [State.raise, State.dropBus, hg, hpe, hb]

/-- Settles O20: the transaction step on the shut channel (`step_hazard`), the first transaction of WRITE and BURST_WRITE
(`exec_hazard`) and the second of UPDATE (`exec_update_hazard`); a configuration agent and a read meet no hazard. -/
theorem postShutdownWriteStopsTask : Obligations.PostShutdownWriteStopsTask := by
  refine ⟨fun s g c cmd m rest hs hb hn hm hw hl hg => ?_, fun s c r v h hc hr hq hw hl =>
    ⟨fun hg => ⟨?_, fun bytes h1 h16 => ?_, fun mask => ?_⟩, fun d hd => ?_, ?_⟩⟩
  · have hz : s.hazard g c cmd = some (.postShutdownWrite c cmd) := by
      obtain ⟨-, r, -, -, rfl⟩ | ⟨r, -, -, -, rfl⟩ | ⟨-, rfl⟩ := hm <;> exact hazard_shut hw hl hg _
    exact step_hazard hs hb hn (.inr hm) hz
  · exact exec_hazard h (by omega) rfl rfl (fun t ht => doStmt_checkAddr (by rwa [ht]) hr) (.inr (.inl ⟨_, r, _, rfl, rfl⟩))
      (hazard_shut hw hl hg r)
  · exact exec_hazard h (by omega) rfl rfl (fun t ht => doStmt_checkBurstWrite (by rwa [ht]) h1 h16)
      (.inr (.inl ⟨_, 0, _, rfl, rfl⟩)) (hazard_shut hw hl hg 0)
  · exact exec_update_hazard h hc hr (by omega) (hazard_readCmd hw _ _ _) (hazard_shut hw hl hg r)
  · exact writeSendsValue s c r v h hc hr (by rw [hd]; exact hazard_config _ _ _ _ hw) (by omega)
  · exact readReturnsByte s c r h hc hr (hazard_readCmd hw _ _ _) (by omega)

/-! ## The register writes of a configuration agent -/

/-- Configuration agent `e` writes the registers of any of `n` channels without waiting or meeting a hazard: it may step, the bus is
free and no divisor window is open (R91, R285, R286). The dispatcher's control state is `d`. -/
def State.MayWrite (s : State) (e n : Nat) (d : DState) : Prop :=
  s.runs (.config e) = true ∧ s.params.nCh = n ∧ s.busLock = .free ∧ s.dlabWindow = none ∧ s.ds = d

/-- A ready configuration agent may write where no divisor window is open. -/
theorem ready_mayWrite {s : State} {e : Nat} (h : s.ready (.config e) = true) (hw : s.dlabWindow = none) :
    s.MayWrite e s.params.nCh s.ds :=
  ⟨ready_runs h, rfl, ready_busLock h, hw, rfl⟩

section

variable (s : State) (e n : Nat) (d : DState)

@[simp] theorem mayWrite_sent (g : Agent) (k : BusKind) (c r : Nat) (data : List Byte) :
    (s.sent g k c r data).MayWrite e n d ↔ s.MayWrite e n d := by simp [State.MayWrite]

@[simp] theorem mayWrite_show (l : List Obs) : (s.show l).MayWrite e n d ↔ s.MayWrite e n d := by simp [State.MayWrite]

@[simp] theorem mayWrite_setChan (c : Nat) (x : Chan) : (s.setChan c x).MayWrite e n d ↔ s.MayWrite e n d := by
  simp [State.MayWrite]

@[simp] theorem dropTasks_runs (c : Nat) (g : Agent) : (s.dropTasks c).runs g = s.runs g := by simp [State.runs]

@[simp] theorem mayWrite_dropTasks (c : Nat) : (s.dropTasks c).MayWrite e n d ↔ s.MayWrite e n d := by simp [State.MayWrite]

end

section

variable {p : State → Bool} {s : State} {e c n k : Nat} {rest : List Stmt} {acc : List Byte} {q : List Instr} {d : DState}

/-- WRITE run to its end (R135). -/
theorem State.MayWrite.run_write {r : Nat} {v : Byte} (h : s.MayWrite e k d) (hc : c < k) (hr : r < 8)
    (hp : Follows p (.config e) d) :
    State.runWhile p (n + 4) (.config e) (s.setAgent (.config e) (ctl (writeCode c r v ++ rest) acc q)) =
      State.runWhile p n (.config e) ((s.sent (.config e) .write c r [v]).setAgent (.config e) (ctl rest acc q)) := by
  obtain ⟨hrun, rfl, hb, hw, hd⟩ := h
  exact Machine.run_write hrun hc hr hb (hazard_config _ e c _ hw) hd hp

/-- WRITE run to its end, with the record `x` in the channel (R135). -/
theorem State.MayWrite.run_write_setChan {r : Nat} {v : Byte} (h : s.MayWrite e k d) (hc : c < k) (hr : r < 8)
    (hp : Follows p (.config e) d) (x : Chan) :
    State.runWhile p (n + 4) (.config e) ((s.setChan c x).setAgent (.config e) (ctl (writeCode c r v ++ rest) acc q)) =
      State.runWhile p n (.config e) (((s.sent (.config e) .write c r [v]).setChan c x).setAgent (.config e) (ctl rest acc q)) :=
  State.MayWrite.run_write (by simpa using h) hc hr hp

/-- `WRITE(c, 0x04, mctrlReq | forced)` run to its end, with the record `x` in the channel (R221). -/
theorem State.MayWrite.run_mcr_setChan (h : s.MayWrite e k d) (hc : c < k) (hlen : c < s.ch.length)
    (hp : Follows p (.config e) d) (x : Chan) :
    State.runWhile p (n + 4) (.config e) ((s.setChan c x).setAgent (.config e) (ctl (mcrCode c ++ rest) acc q)) =
      State.runWhile p n (.config e)
        (((s.sent (.config e) .write c 4 [x.mctrlReq ||| x.forced]).setChan c x).setAgent (.config e) (ctl rest acc q)) := by
  obtain ⟨hrun, rfl, hb, hw, hd⟩ := h
  rw [run_mcr (by simpa using hrun) (by simpa using hc) (by simpa using hb)
    (fun cmd => hazard_config _ e c cmd (by simpa using hw)) (by simpa using hd) hp]
  simp [hlen]

/-- The end of STARTUP and of SHUTDOWN: the session is over, the channel's life is `l`, and the lock is given back (R276, R280). -/
theorem run_endsSession {x : Chan} {l : Life} {g : Agent} (h : s.runs g = true) (hlen : c < s.ch.length)
    (hx : x.chLock = .held g) (hd : s.ds = d) (hp : Follows p g d) :
    State.runWhile p (n + 3) g ((s.setChan c x).setAgent g
        (ctl (.setTxActive c false :: .setLife c l :: .releaseCh c :: rest) acc q)) =
      State.runWhile p n g ((s.setChan c { x with chLock := .free, txActive := false, life := l }).setAgent g
        (ctl rest acc q)) := by
  have hg := State.runs_hasAgent h
  rw [run_setChan (c := c) (x := { x with txActive := false }) (by simpa using h) (by simpa using hd) hp
      (by simp [State.doStmt, hg, hlen]), State.setChan_setChan,
    run_setChan (c := c) (x := { x with txActive := false, life := l }) (by simpa using h) (by simpa using hd) hp
      (by simp [State.doStmt, hg, hlen]), State.setChan_setChan, run_releaseCh_setChan h hlen (by exact hx) hd hp]

end

/-! ## STARTUP -/

/-- OUT2 joins the forced bits and MCR is written with them and the request bits (R221, R276). -/
theorem run_forceOut2 {p : State → Bool} {s : State} {c k n : Nat} {x : Chan} {rest : List Stmt} {acc : List Byte}
    {q : List Instr} {d : DState} (h : s.MayWrite c k d) (hc : c < k) (hlen : c < s.ch.length) (hp : Follows p (.config c) d) :
    State.runWhile p (n + 5) (.config c)
        ((s.setChan c x).setAgent (.config c) (ctl (.forceOut2 c :: (mcrCode c ++ rest)) acc q)) =
      State.runWhile p n (.config c)
        (((s.sent (.config c) .write c 4 [x.mctrlReq ||| (x.forced ||| bit s.params.mcr.out2)]).setChan c
          { x with forced := x.forced ||| bit s.params.mcr.out2 }).setAgent (.config c) (ctl rest acc q)) := by
  have ⟨hrun, _, _, _, hd⟩ := h
  rw [run_setChan (c := c) (x := { x with forced := x.forced ||| bit s.params.mcr.out2 }) (by simpa using hrun)
      (by simpa using hd) hp (by simp [State.doStmt, State.runs_hasAgent hrun, hlen]), State.setChan_setChan,
    h.run_mcr_setChan hc hlen hp]

/-- Settles O51: the writes of STARTUP (`State.MayWrite.run_write_setChan`) and its sleep, the forced bit (`run_forceOut2`) and the
end of the session (`run_endsSession`), with the channel lock held throughout. -/
theorem startupSequence : Obligations.StartupSequence := by
  intro s c h hc hlen hf hw hm hq
  have hrun := ready_runs h
  have hs := ready_mayWrite h hw
  have hp := follows_hasCode (.config c) s.ds
  have hcode : requestCode s.params (.startup c) = startupCode s.params c := rfl
  have hbit : bit s.params.mcr.out2 = 0x08#8 := by rw [hm]; rfl
  refine exec_leaves (m := 25) (if_pos hc) h hq (by simpa using hrun) (by simp) fun n => ?_
  simp only [hcode, startupCode, List.append_assoc, List.cons_append, List.nil_append]
  rw [run_acquireCh hrun hf rfl hp, show n + 25 = n + 3 + 5 + 4 + 4 + 4 + 1 + 4 by rfl, hs.run_write_setChan hc (by decide) hp,
    run_show (l := [.sleep (.config c) s.params.fifoResetDelay]) (by simpa using hrun) (by simp) hp
      (by simp [State.doStmt, State.runs_hasAgent hrun]),
    State.setChan_show,
    State.MayWrite.run_write_setChan (by simpa using hs) hc (by decide) hp,
    State.MayWrite.run_write_setChan (by simpa using hs) hc (by decide) hp,
    State.MayWrite.run_write_setChan (by simpa using hs) hc (by decide) hp,
    run_forceOut2 (by simpa using hs) hc (by simpa using hlen) hp,
    run_endsSession (by simpa using hrun) (by simpa using hlen) rfl (by simp) hp]
  simp only [State.sent_params, State.show_params, hbit, hf]
  rfl

/-! ## Register writes in a row -/

/-- The code of the register writes `ws`, in list order (R135). -/
def writesCode (ws : List PowerDownWrite) : List Stmt := ws.flatMap fun w => writeCode w.chan w.reg w.value

/-- What the register writes `ws` leave. -/
def State.sentAll (s : State) (g : Agent) (ws : List PowerDownWrite) : State :=
  ws.foldl (fun t w => t.sent g .write w.chan w.reg [w.value]) s

theorem sentAll_append (s : State) (g : Agent) (l m : List PowerDownWrite) :
    s.sentAll g (l ++ m) = (s.sentAll g l).sentAll g m := List.foldl_append

/-- What no write transaction changes, register writes in a row do not change. -/
theorem sentAll_keeps {α : Type} {f : State → α} (g : Agent) (hf : ∀ t c r data, f (State.sent t g .write c r data) = f t)
    (ws : List PowerDownWrite) : ∀ s : State, f (s.sentAll g ws) = f s := by
  induction ws with
  | nil => exact fun _ => rfl
  | cons w ws ih => exact fun s => (ih _).trans (hf s w.chan w.reg [w.value])

/-- An update that a write transaction does not look at may be made after register writes in a row. -/
theorem sentAll_after {f : State → State} (g : Agent)
    (hf : ∀ t c r data, (f t).sent g .write c r data = f (t.sent g .write c r data)) (ws : List PowerDownWrite) (s : State) :
    (f s).sentAll g ws = f (s.sentAll g ws) :=
  List.foldl_hom f fun t w => hf t w.chan w.reg [w.value]

section

variable (s : State) (g : Agent) (ws : List PowerDownWrite)

@[simp] theorem sentAll_agent (h : Agent) : (s.sentAll g ws).agent h = s.agent h :=
  sentAll_keeps (f := fun t => t.agent h) g (fun _ _ _ _ => by simp) ws s
@[simp] theorem sentAll_runs (h : Agent) : (s.sentAll g ws).runs h = s.runs h :=
  sentAll_keeps (f := fun t => t.runs h) g (fun _ _ _ _ => by simp) ws s
@[simp] theorem sentAll_tasks : (s.sentAll g ws).tasks = s.tasks := sentAll_keeps (f := State.tasks) g (fun _ _ _ _ => rfl) ws s
@[simp] theorem sentAll_ch : (s.sentAll g ws).ch = s.ch := sentAll_keeps (f := State.ch) g (fun _ _ _ _ => rfl) ws s
@[simp] theorem sentAll_params : (s.sentAll g ws).params = s.params :=
  sentAll_keeps (f := State.params) g (fun _ _ _ _ => rfl) ws s
@[simp] theorem sentAll_ds : (s.sentAll g ws).ds = s.ds := sentAll_keeps (f := State.ds) g (fun _ _ _ _ => rfl) ws s

@[simp] theorem sentAll_mayWrite (e n : Nat) (d : DState) : (s.sentAll g ws).MayWrite e n d ↔ s.MayWrite e n d :=
  Iff.of_eq (sentAll_keeps (f := fun t => t.MayWrite e n d) g (fun _ _ _ _ => by simp) ws s)
@[simp] theorem sentAll_chan (c : Nat) : (s.sentAll g ws).chan c = s.chan c :=
  sentAll_keeps (f := fun t => t.chan c) g (fun _ _ _ _ => rfl) ws s
@[simp] theorem sentAll_hasAgent (h : Agent) : (s.sentAll g ws).hasAgent h = s.hasAgent h :=
  sentAll_keeps (f := fun t => t.hasAgent h) g (fun _ _ _ _ => by simp) ws s

@[simp] theorem sentAll_setChan (c : Nat) (x : Chan) : (s.setChan c x).sentAll g ws = (s.sentAll g ws).setChan c x :=
  sentAll_after (f := fun t => t.setChan c x) g (fun _ _ _ _ => rfl) ws s

@[simp] theorem sentAll_dropTasks (c : Nat) : (s.dropTasks c).sentAll g ws = (s.sentAll g ws).dropTasks c :=
  sentAll_after (f := fun t => t.dropTasks c) g (fun _ _ _ _ => rfl) ws s

end

/-- Register writes in a row run to their end (R135). -/
theorem run_writes {p : State → Bool} {e k n : Nat} {rest : List Stmt} {acc : List Byte} {q : List Instr} {d : DState}
    (hp : Follows p (.config e) d) (ws : List PowerDownWrite) : ∀ {s : State}, s.MayWrite e k d →
    (∀ w ∈ ws, w.chan < k ∧ w.reg < 8) →
    State.runWhile p (n + 4 * ws.length) (.config e) (s.setAgent (.config e) (ctl (writesCode ws ++ rest) acc q)) =
      State.runWhile p n (.config e) ((s.sentAll (.config e) ws).setAgent (.config e) (ctl rest acc q)) := by
  induction ws with
  | nil => exact fun _ _ => rfl
  | cons w ws ih =>
    intro s hs hws
    obtain ⟨⟨hc, hr⟩, hws⟩ := List.forall_mem_cons.mp hws
    rw [writesCode, List.flatMap_cons, List.append_assoc]
    exact (hs.run_write (n := n + 4 * ws.length) hc hr hp).trans (ih (by simpa using hs) hws)

/-! ## SHUTDOWN -/

/-- The writes of SHUTDOWN under the lock: MCR 0, then the channel's power-down writes in list order (R280, log 16). -/
def shutdownWrites (p : Params) (c : Nat) : List PowerDownWrite :=
  { chan := c, reg := 4, value := 0x00#8 } :: (p.powerDownSeq.filter fun w => w.chan == c).map fun w => { w with chan := c }

/-- The part of SHUTDOWN under the lock is these writes and the end of the session (R280). -/
theorem shutdownLockedCode_eq (p : Params) (c : Nat) : shutdownLockedCode p c =
    .acquireCh c :: (writesCode (shutdownWrites p c) ++ [.setTxActive c false, .setLife c .shut, .releaseCh c]) := by
  simp [shutdownLockedCode, powerDownCode, writesCode, shutdownWrites, List.flatMap_map, offMcr]

theorem shutdownWrites_length (p : Params) (c : Nat) : (shutdownWrites p c).length ≤ p.powerDownSeq.length + 1 := by
  simpa [shutdownWrites] using List.length_filter_le _ _

/-- The writes of SHUTDOWN before its wait: IER 0, on channel 0 only (R281). -/
def shutdownFirstWrites (c : Nat) : List PowerDownWrite := if c = 0 then [{ chan := c, reg := 1, value := 0x00#8 }] else []

theorem shutdownWritten_eq (s : State) (c : Nat) : s.shutdownWritten c = s.sentAll (.config c) (shutdownFirstWrites c) := by
  rw [State.shutdownWritten, shutdownFirstWrites]
  split <;> rfl

theorem shutdownFirstWrites_length (c : Nat) : 4 * (shutdownFirstWrites c).length = if c = 0 then 4 else 0 := by
  rw [shutdownFirstWrites]
  split <;> rfl

/-- SHUTDOWN up to its wait (R280, R281). -/
theorem run_shutdownStart {p : State → Bool} {s : State} {c n : Nat} {acc : List Byte} {q : List Instr} {d : DState}
    (h : s.MayWrite c s.params.nCh d) (hc : c < s.params.nCh) (hp : Follows p (.config c) d) :
    State.runWhile p (n + 4 * (shutdownFirstWrites c).length) (.config c)
        (s.setAgent (.config c) (ctl (requestCode s.params (.shutdown c)) acc q)) =
      State.runWhile p n (.config c)
        ((s.shutdownWritten c).setAgent (.config c) (ctl (.awaitTasks c :: shutdownLockedCode s.params c) acc q)) := by
  have hcode : requestCode s.params (.shutdown c) =
      writesCode (shutdownFirstWrites c) ++ .awaitTasks c :: shutdownLockedCode s.params c := by
    rw [requestCode, shutdownCode_eq, shutdownFirstWrites]
    split <;> rfl
  have hws : ∀ w ∈ shutdownFirstWrites c, w.chan < s.params.nCh ∧ w.reg < 8 := by
    rw [shutdownFirstWrites]
    split <;> simp [hc]
  rw [hcode, run_writes hp _ h hws, shutdownWritten_eq]

/-- The drop of the pending requests leaves the task agents as idle as they are (R280). -/
theorem dropTasks_tasksIdle (s : State) (c : Nat) :
    ((s.dropTasks c).chanAgents c).tasksIdle = (s.chanAgents c).tasksIdle := by
  obtain hd | hd := dropTasks_chanAgents s c c <;> rw [hd]
  rfl

theorem dropTasks_dropTasks (s : State) (c : Nat) : (s.dropTasks c).dropTasks c = s.dropTasks c := by
  by_cases hc : c < s.tasks.length <;> simp [State.dropTasks, State.chanAgents, ChanAgents.dropTasks, hc]

/-- SHUTDOWN's wait leaves the configuration agents as they are (R280). -/
theorem dropTasks_config (s : State) (c e : Nat) : (s.dropTasks c).agent (.config e) = s.agent (.config e) := by
  obtain hd | hd := dropTasks_chanAgents s c e <;> (rw [State.agent, hd]; rfl)

/-- SHUTDOWN's wait, while a task agent has statements left, drops the pending requests and does not go on (R279, R280). -/
theorem doStmt_awaitTasks_busy {s : State} {c : Nat} (hc : c < s.tasks.length) (hi : (s.chanAgents c).tasksIdle = false)
    (a : AgentCtl) (rest : List Stmt) : (s.setAgent (.config c) a).doStmt (.config c) (.awaitTasks c) rest =
      (s.dropTasks c).setAgent (.config c) a := by
  have hbusy : ((s.setAgent (.config c) a).chanAgents c).tasksIdle = false := by
    simpa [State.setAgent, State.chanAgents, hc, ChanAgents.tasksIdle] using hi
  rw [State.doStmt, State.awaitTasks, if_neg (by simp [hbusy]), dropTasks_setAgent s c _ hc]

/-- An agent in SHUTDOWN's wait stays there, however long it runs, while a task agent has statements left (R279, R280). -/
theorem run_awaitTasks_busy {p : State → Bool} {s : State} {c n : Nat} {rest : List Stmt} {acc : List Byte} {q : List Instr}
    {d : DState} (h : s.runs (.config c) = true) (hi : (s.chanAgents c).tasksIdle = false) (hd : s.ds = d)
    (hp : Follows p (.config c) d) :
    State.runWhile p (n + 1) (.config c) (s.setAgent (.config c) (ctl (.awaitTasks c :: rest) acc q)) =
      (s.dropTasks c).setAgent (.config c) (ctl (.awaitTasks c :: rest) acc q) := by
  have hg := State.runs_hasAgent h
  have hc : c < s.tasks.length := by simpa [State.hasAgent] using hg
  have again := doStmt_awaitTasks_busy (s := s.dropTasks c) (by simpa using hc) (by rwa [dropTasks_tasksIdle])
    (ctl (.awaitTasks c :: rest) acc q) rest
  rw [dropTasks_dropTasks] at again
  rw [run_goOn h (hp.loaded hd hg) (doStmt_awaitTasks_busy hc hi _ rest),
    runWhile_fixed (agentStep_fixed (nextCode_setAgent (by simpa using hg) rfl) again)]

/-- SHUTDOWN while a task agent of the channel has statements left waits behind its IER write (R279, R280). -/
theorem exec_shutdown_busy {s : State} {c : Nat} (h : s.ready (.config c) = true) (hc : c < s.params.nCh)
    (hw : s.dlabWindow = none) (hi : (s.chanAgents c).tasksIdle = false) (hq : (if c = 0 then 5 else 1) ≤ s.quantum) :
    ∃ rest, exec (.shutdown c) s = .next (((s.shutdownWritten c).dropTasks c).setAgent (.config c)
      { s.agent (.config c) with code := .awaitTasks c :: rest }) := by
  have hp := follows_hasCode (.config c) s.ds
  have hask : s.askedOf (.shutdown c) = some (.config c) := if_pos hc
  have hk := shutdownFirstWrites_length c
  have hk' : 1 + 4 * (shutdownFirstWrites c).length ≤ s.quantum := by split_ifs at hk hq <;> omega
  obtain ⟨n, hn⟩ := quantum_split hk'
  refine ⟨shutdownLockedCode s.params c, ?_⟩
  rw [exec_asked hask, request_ready h (by omega), hn, ← Nat.add_assoc, run_shutdownStart (ready_mayWrite h hw) hc hp,
    run_awaitTasks_busy (by simpa [shutdownWritten_eq] using ready_runs h)
      (by rwa [State.chanAgents, shutdownWritten_tasks]) (by simp [shutdownWritten_eq]) hp, ready_ctl h]

/-- SHUTDOWN with the task agents idle and the lock free, run to its end (R279 to R281). -/
theorem exec_shutdown {s : State} {c : Nat} (h : s.ready (.config c) = true) (hc : c < s.params.nCh) (hlen : c < s.ch.length)
    (hw : s.dlabWindow = none) (hi : (s.chanAgents c).tasksIdle = true) (hf : (s.chan c).chLock = .free)
    (hr : ∀ w ∈ s.params.powerDownSeq, w.reg < 8) (hq : 13 + 4 * s.params.powerDownSeq.length ≤ s.quantum) :
    exec (.shutdown c) s = .next ((((s.shutdownWritten c).sentAll (.config c) (shutdownWrites s.params c)).dropTasks c).setChan c
      { s.chan c with txActive := false, life := .shut }) := by
  have hrun := ready_runs h
  have hs := ready_mayWrite h hw
  have hp := follows_hasCode (.config c) s.ds
  have hk := shutdownWrites_length s.params c
  have hk' := shutdownFirstWrites_length c
  rw [shutdownWritten_eq]
  refine exec_leaves (m := 4 * (shutdownWrites s.params c).length + 4 + 4 * (shutdownFirstWrites c).length) (if_pos hc) h ?_
    (by simpa using hrun) (by simp [dropTasks_config]) fun n => ?_
  · split at hk' <;> omega
  have hws : ∀ w ∈ shutdownWrites s.params c, w.chan < s.params.nCh ∧ w.reg < 8 :=
    List.forall_mem_cons.mpr ⟨⟨hc, (by decide : 4 < 8)⟩,
      List.forall_mem_map.mpr fun w hw => ⟨hc, hr w (List.mem_of_mem_filter hw)⟩⟩
  have hsplit : n + (4 * (shutdownWrites s.params c).length + 4 + 4 * (shutdownFirstWrites c).length + 1) =
      n + 3 + 4 * (shutdownWrites s.params c).length + 1 + 1 + 4 * (shutdownFirstWrites c).length := by omega
  rw [hsplit, run_shutdownStart hs hc hp, shutdownWritten_eq, shutdownLockedCode_eq,
    run_awaitTasks (by simpa using hrun) (by simpa [State.chanAgents] using hi) (by simp) hp,
    run_acquireCh (by simpa using hrun) (by simpa using hf) (by simp) hp,
    run_writes hp _ (by simpa using hs) hws, sentAll_setChan,
    run_endsSession (by simpa using hrun) (by simpa using hlen) rfl (by simp) hp]
  simp [hf]

/-- Task agents that are idle have no statement (log 12). -/
theorem code_of_tasksIdle {s : State} {c : Nat} (h : (s.chanAgents c).tasksIdle = true) {g : Agent}
    (hg : g = .beginTx c ∨ g = .stopTx c ∨ g = .stopRx c ∨ g = .setMctrl c) : (s.agent g).code = [] := by
  simp only [ChanAgents.tasksIdle, Bool.and_eq_true, List.isEmpty_iff] at h
  obtain ⟨⟨⟨hbegin, hstop⟩, hrx⟩, hmctrl⟩ := h
  obtain rfl | rfl | rfl | rfl := hg
  · exact hbegin
  · exact hstop
  · exact hrx
  · exact hmctrl

/-- Settles O52: SHUTDOWN run to its end (`exec_shutdown`), or waiting for the task agents (`exec_shutdown_busy`). -/
theorem shutdownSequence : Obligations.ShutdownSequence := by
  intro s c h hc hlen hw
  have hta : c < s.tasks.length := by simpa [State.hasAgent] using State.runs_hasAgent (ready_runs h)
  refine ⟨fun hidle hf hr hq => ?_, fun ⟨g, hg, hcode⟩ hq => ?_⟩
  · rw [exec_shutdown h hc hlen hw (tasksIdle_of_code hidle) hf hr hq,
      ← setAgents_eq_dropTasks _ (by simp [shutdownWritten_tasks]) hta, State.sentAll, shutdownWrites, List.foldl_cons,
      List.foldl_map]
    rfl
  · have hbusy : (s.chanAgents c).tasksIdle = false := Bool.eq_false_iff.mpr fun hi => hcode (code_of_tasksIdle hi hg)
    obtain ⟨rest, hx⟩ := exec_shutdown_busy h hc hw hbusy hq
    exact ⟨rest, by rw [hx, ← setAgents_eq_dropTasks _ (shutdownWritten_tasks s c) hta]; rfl⟩

/-! ## ATTACH -/

/-- ATTACH's writes on channel `c` (R274). -/
def attachWrites (p : Params) (c : Nat) : List PowerDownWrite :=
  [{ chan := c, reg := 1, value := 0x00#8 }, { chan := c, reg := 4, value := 0x00#8 },
    { chan := c, reg := 2, value := p.fcrReset }]

/-- ATTACH is the initialisation, the writes on every channel in ascending order, and its end (R270, R273, R274). -/
theorem attachCode_eq (p : Params) : attachCode p =
    .initState :: (writesCode ((List.range p.nCh).flatMap (attachWrites p)) ++ [.attachDone]) := by
  rw [writesCode, List.flatMap_assoc]
  rfl

/-- ATTACH writes three registers of each channel (R274). -/
theorem attachWrites_length (p : Params) : 4 * ((List.range p.nCh).flatMap (attachWrites p)).length = 12 * p.nCh := by
  simp [attachWrites]
  omega

theorem attachWrites_inRange (p : Params) :
    ∀ w ∈ (List.range p.nCh).flatMap (attachWrites p), w.chan < p.nCh ∧ w.reg < 8 := by
  intro w hw
  obtain ⟨c, hc, hw⟩ := List.mem_flatMap.mp hw
  have hall : ∀ w ∈ attachWrites p c, w.chan = c ∧ w.reg < 8 := by simp [attachWrites]
  obtain ⟨hwc, hr⟩ := hall w hw
  exact ⟨hwc ▸ List.mem_range.mp hc, hr⟩

theorem chanAttached_eq (s : State) (g : Agent) (c : Nat) : s.chanAttached g c = s.sentAll g (attachWrites s.params c) := rfl

/-- ATTACH's writes on the channels `l` in order (R274). -/
theorem sentAll_attachWrites {p : Params} (g : Agent) (l : List Nat) : ∀ {s : State}, s.params = p →
    s.sentAll g (l.flatMap (attachWrites p)) = l.foldl (fun t c => t.chanAttached g c) s := by
  induction l with
  | nil => exact fun _ => rfl
  | cons c l ih =>
    rintro s rfl
    rw [List.flatMap_cons, sentAll_append, ih (sentAll_params ..), List.foldl_cons, chanAttached_eq]

/-- The block's state at its values at attach (R64, R270); what is kept is log 13. -/
def State.initialised (s : State) : State :=
  { s with
    busLock := .free
    ch := (List.range s.params.nCh).map (Chan.init s.params)
    sigPending := false
    ds := .idle
    dlabWindow := none
    disp := s.disp.atAttach
    tasks := s.tasks.map ChanAgents.atAttach
    attached := false }

/-- ATTACH has ended (R273). -/
def State.attachEnded (s : State) : State := { s with attached := true }

@[simp] theorem initialised_hasAgent (s : State) (g : Agent) : s.initialised.hasAgent g = s.hasAgent g := by
  cases g <;> simp [State.hasAgent, State.initialised]

@[simp] theorem attachEnded_hasAgent (s : State) (g : Agent) : s.attachEnded.hasAgent g = s.hasAgent g := by cases g <;> rfl

/-- The initialisation writes every agent's control state but that of the agent that runs it (R64, log 13). -/
theorem doStmt_initState {s : State} {e : Nat} (he : s.hasAgent (.config e) = true) (a : AgentCtl) (rest : List Stmt) :
    (s.setAgent (.config e) a).doStmt (.config e) .initState rest =
      s.initialised.setAgent (.config e) { a with code := rest } := by
  have hl : e < s.tasks.length := by simpa [State.hasAgent] using he
  simp [State.doStmt, State.initState, State.initialised, State.setAgent, State.agent, State.chanAgents, hl, ChanAgents.atAttach]

/-- The last statement of ATTACH records its end (R273). -/
theorem doStmt_attachDone {s : State} {e : Nat} (he : s.hasAgent (.config e) = true) (a : AgentCtl) (rest : List Stmt) :
    (s.setAgent (.config e) a).doStmt (.config e) .attachDone rest =
      s.attachEnded.setAgent (.config e) { a with code := rest } := by
  have hd : (s.setAgent (.config e) a).doStmt (.config e) .attachDone rest =
    (s.attachEnded.setAgent (.config e) a).goOn (.config e) rest := rfl
  simp [hd, he]

/-- An idle agent with no request pending. -/
theorem agent_of_isIdle {s : State} {g : Agent} (hi : s.isIdle g = true) (hp : (s.agent g).pending = []) :
    s.agent g = ctl [] (s.agent g).acc [] := by
  simp only [State.isIdle, Bool.and_eq_true, List.isEmpty_iff, Bool.not_eq_true'] at hi
  cases ha : s.agent g
  simp_all

/-- A request of ATTACH of an idle agent starts at once, whether ATTACH has ended before or not (R228, R273). -/
theorem request_attach {s : State} (hg : s.hasAgent (.config 0) = true) (hi : s.isIdle (.config 0) = true)
    (hp : (s.agent (.config 0)).pending = []) (hq : 0 < s.quantum) :
    s.request (.config 0) .attach = State.runWhile (State.hasCode (.config 0)) s.quantum (.config 0)
      (s.setAgent (.config 0) (ctl (attachCode s.params) (s.agent (.config 0)).acc [])) := by
  have hnext : nextRequest s.attached [.attach] = some (.attach, []) := by cases s.attached <;> rfl
  have hst : (s.agent (.config 0)).stopped = false := by rw [agent_of_isIdle hi hp]
  simp [State.request, accepts_of_isIdle hi, hq, State.enqueue, State.startNext, hg, hp, hnext, hst, requestCode]

/-- The statements of ATTACH run to their end: the initialisation, the writes, and ATTACH has ended (R273, R274). -/
theorem run_attach {s : State} {n : Nat} {acc : List Byte} {q : List Instr} (hg : s.hasAgent (.config 0) = true) :
    State.runWhile (State.hasCode (.config 0)) (n + (12 * s.params.nCh + 2)) (.config 0)
        (s.setAgent (.config 0) (ctl (attachCode s.params) acc q)) =
      ((List.range s.params.nCh).foldl (fun t c => t.chanAttached (.config 0) c) s.initialised.attachEnded).setAgent (.config 0)
        (ctl [] acc q) := by
  have hp := follows_hasCode (.config 0)
  have hrun : s.initialised.runs (.config 0) = true := by simp [State.runs, hg]
  have hs : s.initialised.MayWrite 0 s.params.nCh .idle := ⟨hrun, rfl, rfl, rfl, rfl⟩
  rw [← sentAll_attachWrites (p := s.params) (s := s.initialised.attachEnded) _ _ rfl, attachCode_eq]
  have hlen := attachWrites_length s.params
  have hin := attachWrites_inRange s.params
  generalize (List.range s.params.nCh).flatMap (attachWrites s.params) = ws at hlen hin ⊢
  have hend : s.initialised.attachEnded.sentAll (.config 0) ws = (s.initialised.sentAll (.config 0) ws).attachEnded :=
    sentAll_after _ (fun _ _ _ _ => rfl) ws _
  rw [show n + (12 * s.params.nCh + 2) = n + 1 + 4 * ws.length + 1 by omega,
    run_goOn (t := s.initialised) (by simp [State.runs, hg]) ((hp s.ds).loaded rfl hg) (doStmt_initState hg _ _),
    run_writes (hp _) ws hs hin,
    run_goOn (by simpa using hrun) ((hp .idle).loaded (sentAll_ds ..) (by simpa using hg))
      (doStmt_attachDone (by simpa using hg) _ _), hend, run_done (by simpa using hg)]

/-- Settles O49: ATTACH starts at once (`request_attach`), and runs to its end in two statements and twelve for each channel
(`run_attach`). -/
theorem attachWritesEveryChannel : Obligations.AttachWritesEveryChannel := by
  intro s hi hpe hn hta hq
  have hg : s.hasAgent (.config 0) = true := by simpa [State.hasAgent, hta] using Nat.lt_of_succ_le hn
  obtain ⟨n, hk⟩ := quantum_split hq
  have hask : s.askedOf .attach = some (.config 0) := rfl
  have hx := exec_asked hask
  rw [request_attach hg hi hpe (by omega), hk, run_attach hg, ← agent_of_isIdle hi hpe] at hx
  exact hx

end Sys2Proof.Machine
end
